-- ==== Sys2Proof/Word.lean ====
section
/-! DEFINITION. The one datum of the hardware, the byte, and the 7-bit length (00_scope.md R6, R8; 10_state.md R17). -/

namespace Sys2Proof

/-- "A byte is 8 bits" (R8): the element of every stream and of both buffers. -/
abbrev Byte := BitVec 8

/-- The 7-bit length or count field (R6 LEN_W, R64): unsigned, 0 to 127. -/
abbrev Len := BitVec 7

end Sys2Proof
end

