-- ==== Sys2Proof/Config.lean ====
section
/-! DEFINITION. The constants the source fixes (00_scope.md R6), the parameters it leaves open (R7), and the one free
value of the model (60_exceptions.md R157). -/

namespace Sys2Proof

/-- IoErrorKind, "the collaborator's set of I/O error kinds", opaque to the core (R7, D7). A kind is the number the
collaborator gives it; the core copies it and never inspects it. DESIGN CHOICE, log entry 3. -/
abbrev IoErrorKind := Nat

/-- LIT_FILL (R7, 92_eei_decisions.md D9): what literal accumulation does at 126 bytes with an equal pair next. -/
inductive LitFill where
  /-- One byte at a time, never past 127: the spec's choice. -/
  | split
  /-- Chunks of one or two, never past 127. -/
  | defer
  /-- The source's step 3 word for word: chunks of one or two, can reach 128. -/
  | chunk
  deriving DecidableEq, Repr

/-- The parameters of R7 that the step rules read. They are arguments of the model: constant for one machine, and no
step changes them. -/
structure Params where
  /-- IBUF_CAP: `none` is infinity ("a model takes infinity"). -/
  ibufCap : Option Nat
  /-- LIT_FILL, default SPLIT. -/
  litFill : LitFill
  deriving DecidableEq, Repr

/-- The defaults the spec gives: IBUF_CAP infinite, LIT_FILL = SPLIT (R7). -/
def Params.default : Params := { ibufCap := none, litFill := .split }

/-- IDX_W (R7): "the least w with 2^w > IBUF_CAP; unbounded when IBUF_CAP is infinity" (`none`). -/
def Params.idxW (p : Params) : Option Nat :=
  p.ibufCap.map fun c => if c = 0 then 0 else Nat.log2 c + 1

/-- KIND_W less one. OPEN in the spec ("at least 1", R7), so it has no body: nothing can depend on its value. -/
opaque Config.kindWPred : Nat

/-- KIND_W (R7): the width of the port and register that carry an IoErrorKind, at least 1. -/
def Config.kindW : Nat := Config.kindWPred + 1

/-- The free value of R157 and U3: what the sink holds while a flush has not assured it. Applied to the moment of asking;
it has no body, so no claim about it can be proved. Log entry 8. -/
opaque Config.freeSink : Nat → List Byte

/-- LEN_MAX = 127 (R6): the largest count of a run record and the largest length of a literal record. -/
def Config.lenMax : Nat := 127

/-- RUN_MIN = 3 (R6): "The threshold of 3 is exact". -/
def Config.runMin : Nat := 3

/-- LOOKAHEAD = 3 (R6): the cap of the run measurement made inside a literal. -/
def Config.lookahead : Nat := 3

/-- LIT_FLAG = 0x80 (R6): bit 7 of the header, 1 = literal. -/
def Config.litFlag : Byte := 0x80#8

/-- TERMINATOR = 0x00 (R6): the header byte that ends a stream. -/
def Config.terminator : Byte := 0x00#8

/-- The number of bytes of LBUF (R37): indices 0 to 126. -/
def Config.lbufSize : Nat := 127

end Sys2Proof
end

