-- ==== Sys2Proof/Syntax.lean ====
section
/-! DEFINITION. The instructions: one constructor per row of spec/opcode_table.json (00_scope.md R2; 30_encoding.md R72,
R73, R81). -/

namespace Sys2Proof

/-- The records of a framed stream (RUN, LIT, END) and the two commands of the mode flag (ENCODE, DECODE). -/
inductive Instr where
  /-- END (format E, R69): `flag` is the header's bit 7, which the decoder ignores (R76): clear is 0x00, set is the
  alias 0x80 (END.L, R84). -/
  | endRec (flag : Bool)
  /-- RUN count, value (format R, R67): count copies of value. -/
  | run (count : Len) (value : Byte)
  /-- LIT b0 ... b(l-1) (format L, R68): the bytes as they stand. -/
  | lit (body : List Byte)
  /-- ENCODE (format M, R81): `start` taken with `decompress` = 0. -/
  | encode
  /-- DECODE (format M, R81): `start` taken with `decompress` = 1. -/
  | decode
  deriving DecidableEq, Repr

/-- A record of the framed stream, as opposed to a command of the mode flag. -/
def Instr.isRecord : Instr → Bool
  | .endRec _ => true
  | .run _ _ => true
  | .lit _ => true
  | .encode => false
  | .decode => false

end Sys2Proof
end

