-- ==== Sys2Proof/WellFormed.lean ====
section
/-! DEFINITION. Which instructions the encodings can spell (30_encoding.md R62, R67, R68, R77). -/

namespace Sys2Proof

/-- A run count is 1 to 127 (R67: a length of 0 is END); a literal has 1 to 127 bytes (R68, R77). -/
def Instr.wellFormed : Instr → Bool
  | .endRec _ => true
  | .run count _ => count != 0
  | .lit body => decide (1 ≤ body.length ∧ body.length ≤ Config.lenMax)
  | .encode => true
  | .decode => true

end Sys2Proof
end

