-- ==== Sys2Proof/Decode.lean ====
section
/-! DEFINITION. The decoder (30_encoding.md R64, R65, R70 to R72, R81), total on any bytes, and the encoder written from
the same tables (R66 to R69); the assembler notation (R82, R84). -/

namespace Sys2Proof

/-! ## Header fields -/

/-- `flag = h[7]` (R65). -/
def hdrFlag (h : Byte) : Bool := h.getLsbD 7

/-- `length = h[6:0]` (R65): the count itself, nothing scaled or biased. -/
def hdrLen (h : Byte) : Len := h.extractLsb' 0 7

/-- The header of a run record of count `c`: "the byte whose value is c" (R66). -/
def hdrRun (c : Len) : Byte := c.setWidth 8

/-- The header of a literal record of length `l`: `0x80 | l` (R66), on eight bits so that R133's case l = 128 (header
0x80) is covered as well. -/
def hdrLit (l : Byte) : Byte := Config.litFlag ||| l

/-- The terminator, 0x00 (R66, R69). -/
def hdrEnd : Byte := Config.terminator

/-- The three classes of header (R72). -/
inductive RecordKind where
  | ending
  | run
  | literal
  deriving DecidableEq, Repr

/-- The classification of every header value, the END test first (R72, R76). -/
def classify (h : Byte) : RecordKind :=
  if hdrLen h = 0 then .ending else if hdrFlag h then .literal else .run

/-! ## Decoding -/

/-- Why bytes hold no whole record: the only way a framed stream can fail is by ending too soon (R74). -/
inductive DecodeError where
  /-- No byte where a header is due (R150). -/
  | noHeader
  /-- A run header with no value byte after it (R152). -/
  | noValue
  /-- A literal header announcing more bytes than there are (R151). -/
  | shortBody
  deriving DecidableEq, Repr

/-- One record from the front of a byte sequence, and the bytes after it (R65, R70, R72). -/
def decodeRecord : List Byte → Except DecodeError (Instr × List Byte)
  | [] => .error .noHeader
  | h :: rest =>
    match classify h with
    | .ending => .ok (.endRec (hdrFlag h), rest)
    | .run =>
      match rest with
      | [] => .error .noValue
      | v :: rest' => .ok (.run (hdrLen h) v, rest')
    | .literal =>
      if (hdrLen h).toNat ≤ rest.length then
        .ok (.lit (rest.take (hdrLen h).toNat), rest.drop (hdrLen h).toNat)
      else .error .shortBody

/-- What an instruction is spelled in: bytes of the input stream (formats R, L, E) or the mode flag (format M). -/
inductive Code where
  | record (bytes : List Byte)
  | command (decompress : Bool)
  deriving DecidableEq, Repr

/-- The command of the mode flag: 0 is ENCODE, 1 is DECODE (R81, R21). -/
def decodeCommand (decompress : Bool) : Instr := if decompress then .decode else .encode

/-- The instruction a code spells, and the bytes left over. -/
def decode : Code → Except DecodeError (Instr × List Byte)
  | .record bytes => decodeRecord bytes
  | .command decompress => .ok (decodeCommand decompress, [])

/-! ## Encoding -/

/-- The code of an instruction (R66 to R69, R76, R81). -/
def encode : Instr → Code
  | .endRec flag => .record [if flag then hdrLit 0 else hdrEnd]
  | .run count value => .record [hdrRun count, value]
  | .lit body => .record (hdrLit (BitVec.ofNat 8 body.length) :: body)
  | .encode => .command false
  | .decode => .command true

/-- The bytes of a code: a command has none in the stream. -/
def codeBytes : Code → List Byte
  | .record bytes => bytes
  | .command _ => []

/-- The record's bytes in stream order, header first (R43). -/
def recordBytes (i : Instr) : List Byte := codeBytes (encode i)

/-- The length in bytes the format gives a record (R63, R70). -/
def recordLength : Instr → Nat
  | .endRec _ => 1
  | .run _ _ => 2
  | .lit body => 1 + body.length
  | .encode => 0
  | .decode => 0

/-! ## The opcode table's words -/

/-- The first `k` bytes of a number whose bit 0 is bit 0 of the first byte. -/
def bytesOfNat : Nat → Nat → List Byte
  | 0, _ => []
  | k + 1, w => BitVec.ofNat 8 w :: bytesOfNat k (w / 256)

/-- The longest record: LIT 127 (R63). -/
def longestRecord : Nat := 128

/-- How many bytes a record with this header takes (R70). -/
def spanOfHeader (h : Byte) : Nat :=
  match classify h with
  | .ending => 1
  | .run => 2
  | .literal => 1 + (hdrLen h).toNat

/-- The code of a table word: fewer than 8 bits is the mode flag (format M, R81), bit 0; otherwise the bytes of the
record its first byte announces, those above `nbits` zero. Log entry 12. -/
def codeOfTableWord (nbits w : Nat) : Code :=
  if nbits < 8 then .command (decide (w % 2 = 1))
  else .record (bytesOfNat (spanOfHeader (BitVec.ofNat 8 w)) (w % 2 ^ nbits))

/-- The instruction the decoder reads from a table word. -/
def decodeTableWord (nbits w : Nat) : Option Instr :=
  match decode (codeOfTableWord nbits w) with
  | .ok (i, _) => some i
  | .error _ => none

/-! ## Assembler notation -/

/-- One line of the text form (R82, R84). -/
inductive AsmLine where
  /-- `RUN <count>, <value>` -/
  | run (count : Len) (value : Byte)
  /-- `LIT <b0> ... <b(l-1)>` -/
  | lit (body : List Byte)
  /-- `END` -/
  | fin
  /-- `END.L`, the alias 0x80 -/
  | finL
  /-- `.byte <b> ...`, raw bytes -/
  | byte (raw : List Byte)
  deriving DecidableEq, Repr

/-- The bytes of one line (R82, R84). -/
def assembleLine : AsmLine → List Byte
  | .run count value => recordBytes (.run count value)
  | .lit body => recordBytes (.lit body)
  | .fin => recordBytes (.endRec false)
  | .finL => recordBytes (.endRec true)
  | .byte raw => raw

/-- The framed stream a text spells, line by line. -/
def assemble : List AsmLine → List Byte
  | [] => []
  | l :: ls => assembleLine l ++ assemble ls

end Sys2Proof
end

