-- ==== Sys2Proof/Machine/State.lean ====
section
/-! DEFINITION. The state of one core (10_state.md R17), the collaborator's side of it as plain data (00_scope.md R12),
the reasons a step can stop, and the state after reset (R41). -/

namespace Sys2Proof.Machine

/-- MODE (R21): 0 is ENCODE, 1 is DECODE. -/
inductive Mode where
  | encode
  | decode
  deriving DecidableEq, Repr

/-- STATUS (R23). -/
inductive Status where
  | idle
  | busy
  | ok
  | fail
  deriving DecidableEq, Repr

/-- ERRCAUSE (R24, R146): seven causes; code 7 is never produced and has no constructor (U12). -/
inductive ErrCause where
  | noCause
  | rdFail
  | wrFail
  | flFail
  | eofHdr
  | eofLit
  | eofVal
  deriving DecidableEq, Repr

/-- ESTATE (R31). -/
inductive EState where
  | load
  | scan
  | litAcc
  | txRun
  | txLit
  | txEnd
  | flush
  | halt
  deriving DecidableEq, Repr

/-- DSTATE (R33): the source's four. -/
inductive DState where
  | readingHeader
  | emittingLiteral
  | emittingRun
  | done
  deriving DecidableEq, Repr

/-- DPHASE (R34). -/
inductive DPhase where
  | fill
  | drain
  deriving DecidableEq, Repr

/-- The answers of `InRead()` (R12). -/
inductive InAnswer where
  | byte (b : Byte)
  | eos
  | fail (k : IoErrorKind)
  deriving DecidableEq, Repr

/-- The answers of `OutWrite(b)` and `OutFlush()` (R12). -/
inductive OutAnswer where
  | ok
  | fail (k : IoErrorKind)
  deriving DecidableEq, Repr

/-- An event: one stream primitive with its argument and its answer (R11, R16). -/
inductive Event where
  | rd (a : InAnswer)
  | wr (b : Byte) (a : OutAnswer)
  | flush (a : OutAnswer)
  deriving DecidableEq, Repr

/-- What the collaborator presents to the core at one machine step: the control pins (R22, R168), whether it opens a
fresh pair of streams (R171), and the answers it has ready (R12). -/
structure HostInput where
  rst : Bool
  start : Bool
  decompress : Bool
  fresh : Bool
  inBeats : List InAnswer
  outBeats : List OutAnswer
  deriving DecidableEq, Repr

/-- A byte memory: (index, byte) pairs with strictly rising indices; an index not listed holds no value. -/
abbrev Memory := List Host.Cell

/-- Reasons the machine stops where the spec's rules read something they never read. None is the hardware's exception
(that one, IOFailure, is taken as a next state, R156). -/
inductive Fault where
  /-- Raised by the run measurement, FRM.TX_RUN and FRM.TX_LIT on an IBUF byte nothing has written (R41, R48). Safe. -/
  | ibufUnwritten (index : Nat)
  /-- Raised by ENC.LOAD on an index outside IBUF (R47). Safe. -/
  | ibufRange (index : Nat)
  /-- Raised by the drain of a literal on an LBUF byte nothing has written (R41, R49). Safe. -/
  | lbufUnwritten (index : Nat)
  /-- Raised by FRM.RX_LIT_BODY on an index outside 0 to 126 (R47). Safe. -/
  | lbufRange (index : Nat)
  /-- Raised by ENC.SCAN when it would measure a run at an index not below N (R87). Safe. -/
  | runOutsideInput (index : Nat)
  deriving DecidableEq, Repr

/-- Situations the spec gives no meaning (its treatment `refuse`), and instructions not modelled. -/
inductive Refusal where
  /-- An arm of `exec` with no meaning: none in this model. Safe. -/
  | notModelled (mnemonic : String)
  /-- Raised by ENC.LOAD on a byte beyond a finite IBUF_CAP (R50, U5). Safe. -/
  | ibufFull
  /-- Raised by the control logic on `rst` while BUSY (R169, U7). Safe. -/
  | resetWhileBusy
  /-- Raised by the control logic when the streams are replaced during an invocation (R178, U14). Safe. -/
  | streamsReplaced
  deriving DecidableEq, Repr

/-- The state of one core and of its collaborator. -/
structure State where
  /-- MODE (R21) -/
  mode : Mode
  /-- STATUS (R23) -/
  status : Status
  /-- ERRCAUSE (R24) -/
  errCause : ErrCause
  /-- ERRKIND (R25) -/
  errKind : IoErrorKind
  /-- IBUF (R26) -/
  ibuf : Memory
  /-- N (R27) -/
  n : Nat
  /-- I (R28) -/
  i : Nat
  /-- RUNLEN (R29) -/
  runLen : Len
  /-- LITSTART (R30) -/
  litStart : Nat
  /-- LITLEN (R30), eight bits so that LIT_FILL = CHUNK fits -/
  litLen : BitVec 8
  /-- ESTATE (R31) -/
  eState : EState
  /-- TXK (R32), eight bits so that LIT_FILL = CHUNK fits -/
  txk : BitVec 8
  /-- DSTATE (R33) -/
  dState : DState
  /-- DPHASE (R34) -/
  dPhase : DPhase
  /-- LEN (R35) -/
  len : Len
  /-- VAL (R36) -/
  val : Byte
  /-- LBUF (R37) -/
  lbuf : Memory
  /-- K (R37) -/
  k : Len
  /-- The events since `start`, oldest first (R16); RPOS, WPOS and the traces are views of it (R38). -/
  events : List Event
  /-- The answers the input stream has ready; empty means the next `InRead()` waits (R186). -/
  inQueue : List InAnswer
  /-- The answers the output stream has ready; empty means the next write or flush waits (R186). -/
  outQueue : List OutAnswer
  /-- The collaborator's output buffer (R39): bytes taken and not yet assured by a flush. -/
  outBuffer : List Byte
  /-- The bytes of the sink a flush has assured (R39, R56). -/
  sink : List Byte
  /-- An invocation has failed on this output stream, so what its sink holds is any value (R157, U3) until a fresh stream is
  opened. Log entry 8. -/
  sinkLost : Bool
  /-- What the collaborator will present at the coming machine steps; empty means pins low and nothing new. -/
  host : List HostInput
  /-- The parameters of R7. -/
  par : Params
  deriving DecidableEq, Repr

/-- The machine right after reset (R41, R168). The registers R41 leaves unspecified hold 0 (log entry 1), IBUF and LBUF
hold no byte (log entry 2), nothing is queued and nothing has happened (log entry 6). -/
def State.reset : State where
  mode := .encode
  status := .idle
  errCause := .noCause
  errKind := 0
  ibuf := []
  n := 0
  i := 0
  runLen := 0
  litStart := 0
  litLen := 0
  eState := .halt
  txk := 0
  dState := .readingHeader
  dPhase := .fill
  len := 0
  val := 0
  lbuf := []
  k := 0
  events := []
  inQueue := []
  outQueue := []
  outBuffer := []
  sink := []
  sinkLost := false
  host := []
  par := Params.default

/-- The outcome of a step of this machine. -/
abbrev Res := Host.Outcome State Fault Refusal

end Sys2Proof.Machine
end

