-- ==== Sys2Proof/Machine/Ops.lean ====
section
/-! DEFINITION. The named operations: the byte memories (20_memory.md R42 to R49), the stream primitives (00_scope.md
R12), raising IOFailure (60_exceptions.md R156), and the observations of an invocation (00_scope.md R16). -/

namespace Sys2Proof.Machine

/-! ## Byte memories -/

/-- The canonical form: strictly rising indices (no value is what an unlisted index reads as, so no entry is idle). -/
def Memory.wf : Memory → Bool
  | [] => true
  | [_] => true
  | c :: d :: m => decide (c.1 < d.1) && Memory.wf (d :: m)

/-- The byte at an index, if one has been written. -/
def readCell : Memory → Nat → Option Byte
  | [], _ => none
  | c :: m, a => if c.1 = a then some c.2 else readCell m a

/-- One byte written, in canonical form. -/
def writeCell : Memory → Nat → Byte → Memory
  | [], a, b => [(a, b)]
  | c :: m, a, b =>
    if a < c.1 then (a, b) :: c :: m
    else if c.1 = a then (a, b) :: m
    else c :: writeCell m a b

/-- Bytes written at consecutive indices from `a` on. -/
def writeCells : Memory → Nat → List Byte → Memory
  | m, _, [] => m
  | m, a, b :: bs => writeCells (writeCell m a b) (a + 1) bs

/-- An index of IBUF exists if it is below IBUF_CAP (R47). -/
def ibufHas (p : Params) (a : Nat) : Bool :=
  match p.ibufCap with
  | none => true
  | some c => decide (a < c)

/-- `x[a]` of IBUF (R10), handed to the rest of the step. -/
def readIbuf (s : State) (a : Nat) (use : Byte → Res) : Res :=
  match readCell s.ibuf a with
  | some b => use b
  | none => .fault (.ibufUnwritten a)

/-- `IBUF[a] <- b` (R10), then the rest of the step. -/
def writeIbuf (s : State) (a : Nat) (b : Byte) (rest : State → Res) : Res :=
  if ibufHas s.par a then rest { s with ibuf := writeCell s.ibuf a b } else .fault (.ibufRange a)

/-- `x[a]` of LBUF (R10), handed to the rest of the step. -/
def readLbuf (s : State) (a : Nat) (use : Byte → Res) : Res :=
  match readCell s.lbuf a with
  | some b => use b
  | none => .fault (.lbufUnwritten a)

/-- `LBUF[a] <- b` (R10), then the rest of the step. -/
def writeLbuf (s : State) (a : Nat) (b : Byte) (rest : State → Res) : Res :=
  if a < Config.lbufSize then rest { s with lbuf := writeCell s.lbuf a b } else .fault (.lbufRange a)

/-! ## Stream primitives -/

/-- The state once `InRead()` has been answered `a`, `q` being the answers still to come. -/
def State.afterRead (s : State) (a : InAnswer) (q : List InAnswer) : State :=
  { s with inQueue := q, events := s.events ++ [.rd a] }

/-- The state once `OutWrite(b)` has been answered `a`: on `Ok` the collaborator holds the byte in its buffer (R61). -/
def State.afterWrite (s : State) (b : Byte) (a : OutAnswer) (q : List OutAnswer) : State :=
  { s with
    outQueue := q
    events := s.events ++ [.wr b a]
    outBuffer := if a = .ok then s.outBuffer ++ [b] else s.outBuffer }

/-- The state once `OutFlush()` has been answered `a`: on `Ok` every byte written so far is in the sink (R39, R56). -/
def State.afterFlush (s : State) (a : OutAnswer) (q : List OutAnswer) : State :=
  { s with
    outQueue := q
    events := s.events ++ [.flush a]
    sink := if a = .ok then s.sink ++ s.outBuffer else s.sink
    outBuffer := if a = .ok then [] else s.outBuffer }

/-- `InRead()` (R12): the rest of the step runs on the answer; with none yet, the core waits and nothing changes (R53,
R186). -/
def inRead (s : State) (rest : InAnswer → State → Res) : Res :=
  match s.inQueue with
  | [] => .next s
  | a :: q => rest a (s.afterRead a q)

/-- `OutWrite(b)` (R12). -/
def outWrite (b : Byte) (s : State) (rest : OutAnswer → State → Res) : Res :=
  match s.outQueue with
  | [] => .next s
  | a :: q => rest a (s.afterWrite b a q)

/-- `OutFlush()` (R12). -/
def outFlush (s : State) (rest : OutAnswer → State → Res) : Res :=
  match s.outQueue with
  | [] => .next s
  | a :: q => rest a (s.afterFlush a q)

/-! ## The one exception -/

/-- The kind of a failure (R13, R145): the collaborator's own, or the abstract `UnexpectedEof`. -/
inductive FailKind where
  | io (k : IoErrorKind)
  | unexpectedEof
  deriving DecidableEq, Repr

/-- What ERRKIND holds for a cause and kind (R25, R156): the kind unchanged for RD_FAIL, WR_FAIL and FL_FAIL, else 0. -/
def errKindOf (cause : ErrCause) (kind : FailKind) : IoErrorKind :=
  match cause, kind with
  | .rdFail, .io k => k
  | .wrFail, .io k => k
  | .flFail, .io k => k
  | _, _ => 0

/-- `raise IOFailure(cause, kind)` (R13, R156): ERRCAUSE, ERRKIND and STATUS are written, and nothing else of the core. On
the collaborator's side the sink's content becomes any value (R157). -/
def State.raise (s : State) (cause : ErrCause) (kind : FailKind) : State :=
  { s with errCause := cause, errKind := errKindOf cause kind, status := .fail, sinkLost := true }

/-! ## Repeating a step -/

/-- At most `fuel` steps of `tick`, as long as `go` holds before each. -/
def runWhile (go : State → Bool) (tick : State → Res) : Nat → State → Res
  | 0, s => .next s
  | fuel + 1, s =>
    if go s then
      match tick s with
      | .next s' => runWhile go tick fuel s'
      | .fault r => .fault r
      | .refused r => .refused r
    else .next s

/-- The next state of an outcome, if it has one. -/
def nextState? : Res → Option State
  | .next s => some s
  | .fault _ => none
  | .refused _ => none

/-! ## Observations -/

/-- The byte an event read, if it is an `InRead() = Byte(b)` event. -/
def Event.readByte? : Event → Option Byte
  | .rd (.byte b) => some b
  | _ => none

/-- The byte an event wrote, if it is an `OutWrite(b) = Ok` event. -/
def Event.wroteByte? : Event → Option Byte
  | .wr b .ok => some b
  | _ => none

/-- The read trace (R16). -/
def State.readTrace (s : State) : List Byte := s.events.filterMap Event.readByte?

/-- The write trace (R16). -/
def State.writeTrace (s : State) : List Byte := s.events.filterMap Event.wroteByte?

/-- RPOS (R38): the number of `InRead() = Byte(b)` events since `start`. -/
def State.rpos (s : State) : Nat := s.readTrace.length

/-- WPOS (R38): the number of `OutWrite(b) = Ok` events since `start`. -/
def State.wpos (s : State) : Nat := s.writeTrace.length

/-- What an outside observer sees of an invocation (R16). -/
structure Observation where
  mode : Mode
  events : List Event
  status : Status
  errCause : ErrCause
  errKind : IoErrorKind
  deriving DecidableEq, Repr

/-- The observation of the current or last invocation (R16). -/
def State.observe (s : State) : Observation :=
  { mode := s.mode, events := s.events, status := s.status, errCause := s.errCause, errKind := s.errKind }

/-- What the sink holds at the moment `t` (R39, R157, U3): the assured bytes if nothing is buffered and no invocation has
failed on this output stream; otherwise any value. -/
def State.sinkContent (s : State) (t : Nat) : List Byte :=
  if s.sinkLost = true ∨ s.outBuffer ≠ [] then Config.freeSink t else s.sink

end Sys2Proof.Machine
end

