-- ==== Sys2Proof/Machine/Flags.lean ====
section
/-! DEFINITION. What plays the part of condition bits (10_state.md R19: no arithmetic flag, no operation writes one), and
the codes of the control registers (R21, R23, R24, R33, R34). -/

namespace Sys2Proof.Machine

/-- R19 (a): the literal flag, bit 7 of a header byte; a field of the record, never stored. -/
def literalFlag (h : Byte) : Bool := hdrFlag h

/-- R19 (b): the comparison `run >= 3`, used within one step of the encoder and not stored. -/
def qualifies (measured : Nat) : Bool := decide (Config.runMin ≤ measured)

/-- R19 (c), R23: `busy`. -/
def State.busy (s : State) : Bool := decide (s.status = .busy)

/-- R19 (c), R23: `done`. -/
def State.done (s : State) : Bool := decide (s.status = .ok)

/-- R19 (c), R23: `fail`. -/
def State.failed (s : State) : Bool := decide (s.status = .fail)

/-- ENC steps only while STATUS = BUSY and MODE = 0 (R17, R23). -/
def State.encoding (s : State) : Bool := decide (s.status = .busy ∧ s.mode = .encode)

/-- DEC steps only while STATUS = BUSY and MODE = 1 (R17, R23). -/
def State.decoding (s : State) : Bool := decide (s.status = .busy ∧ s.mode = .decode)

/-- The decoder stands inside a record: its header has been read and its execution is not over (R106). -/
def State.midRecord (s : State) : Bool := s.decoding && decide (s.dState ≠ .readingHeader)

/-- The code of MODE (R21). -/
def Mode.code : Mode → BitVec 1
  | .encode => 0
  | .decode => 1

/-- The mode a value of the `decompress` pin selects (R21, R81). -/
def modeOfPin (decompress : Bool) : Mode := if decompress then .decode else .encode

/-- The code of STATUS (R23). -/
def Status.code : Status → BitVec 2
  | .idle => 0
  | .busy => 1
  | .ok => 2
  | .fail => 3

/-- The code of ERRCAUSE (R24, R146). -/
def ErrCause.code : ErrCause → BitVec 3
  | .noCause => 0
  | .rdFail => 1
  | .wrFail => 2
  | .flFail => 3
  | .eofHdr => 4
  | .eofLit => 5
  | .eofVal => 6

/-- The code of DSTATE (R33). -/
def DState.code : DState → BitVec 2
  | .readingHeader => 0
  | .emittingLiteral => 1
  | .emittingRun => 2
  | .done => 3

/-- The code of DPHASE (R34). -/
def DPhase.code : DPhase → BitVec 1
  | .fill => 0
  | .drain => 1

/-- The causes that are a premature end of input (R146, cover (c)). -/
def ErrCause.isEof : ErrCause → Bool
  | .noCause => false
  | .rdFail => false
  | .wrFail => false
  | .flFail => false
  | .eofHdr => true
  | .eofLit => true
  | .eofVal => true

end Sys2Proof.Machine
end

