-- ==== Sys2Proof/Machine/Operands.lean ====
section
/-! DEFINITION. What the operations take their operands from: the run measurement over IBUF (40_encoder.md R87), the
bytes LIT_FILL lets a literal take (92_eei_decisions.md D9), the bytes ready on the input stream, and the literal body
held in LBUF. -/

namespace Sys2Proof.Machine

/-- How many bytes from index `i` on, at most `cap` and only below `n`, equal `b`. -/
def countSame (m : Memory) (n : Nat) (b : Byte) : Nat → Nat → Except Fault Nat
  | 0, _ => .ok 0
  | cap + 1, i =>
    if i < n then
      match readCell m i with
      | none => .error (.ibufUnwritten i)
      | some x =>
        if x = b then
          match countSame m n b cap (i + 1) with
          | .ok r => .ok (r + 1)
          | .error f => .error f
        else .ok 0
    else .ok 0

/-- The run measurement `run(i, cap)` (R87): it counts the byte at `i` itself and stops at the end of the input, the
first differing byte, or the cap. Defined for `i < N` only. -/
def measureRun (s : State) (i cap : Nat) : Except Fault Nat :=
  if i < s.n then
    match readCell s.ibuf i with
    | none => .error (.ibufUnwritten i)
    | some b => countSame s.ibuf s.n b cap i
  else .error (.runOutsideInput i)

/-- How many bytes the literal of length `acc` takes when the measure at I is `m` (R92, D9); 0 is "stop". -/
def literalTakes (fill : LitFill) (acc m : Nat) : Nat :=
  if qualifies m then 0
  else
    match fill with
    | .split => 1
    | .defer => if Config.lenMax < acc + m then 0 else m
    | .chunk => m

/-- The bytes the input stream has ready before any other answer. -/
def leadingBytes : List InAnswer → List Byte
  | .byte b :: q => b :: leadingBytes q
  | _ => []

/-- `LBUF[0 .. l)`, the body held for the current literal record (R37). -/
def heldBody (m : Memory) : Nat → Nat → List Byte
  | 0, _ => []
  | l + 1, a =>
    match readCell m a with
    | some b => b :: heldBody m l (a + 1)
    | none => []

end Sys2Proof.Machine
end

