-- ==== Sys2Proof/Machine/Framer.lean ====
section
/-! DEFINITION. FRM, the record framer (42_framer.md R126 to R132): the one place where a record becomes bytes and bytes
become a record. Each operation is one step; `done` and `found` are the caller's part of that same step. -/

namespace Sys2Proof.Machine

/-- What every write of the core does on a failing answer: WR_FAIL with the collaborator's kind (R148). -/
def writeThen (b : Byte) (s : State) (done : State → Res) : Res :=
  outWrite b s fun a s' =>
    match a with
    | .ok => done s'
    | .fail k => .next (s'.raise .wrFail (.io k))

/-- What every read of the decoder does: RD_FAIL on a failing answer (R147), the given cause on `Eos` (R150 to R152). -/
def readThen (eofCause : ErrCause) (s : State) (found : Byte → State → Res) : Res :=
  inRead s fun a s' =>
    match a with
    | .byte b => found b s'
    | .eos => .next (s'.raise eofCause .unexpectedEof)
    | .fail k => .next (s'.raise .rdFail (.io k))

/-- FRM.TX_RUN (R127). -/
def txRun (s : State) (done : State → Res) : Res :=
  if s.txk = 0 then
    writeThen (hdrRun s.runLen) s fun s' => .next { s' with txk := 1 }
  else
    readIbuf s s.i fun b => writeThen b s done

/-- FRM.TX_LIT (R128). -/
def txLit (s : State) (done : State → Res) : Res :=
  if s.txk = 0 then
    writeThen (hdrLit s.litLen) s fun s' => .next { s' with txk := 1 }
  else
    readIbuf s (s.litStart + s.txk.toNat - 1) fun b =>
      writeThen b s fun s' =>
        if s'.txk = s'.litLen then done s' else .next { s' with txk := s'.txk + 1 }

/-- FRM.TX_END (R129): the byte is 0x00, never 0x80. -/
def txEnd (s : State) (done : State → Res) : Res :=
  writeThen hdrEnd s done

/-- FRM.RX_HDR (R130): LEN is stored, the flag is handed to the caller. -/
def rxHdr (s : State) (found : Bool → State → Res) : Res :=
  readThen .eofHdr s fun h s' => found (literalFlag h) { s' with len := hdrLen h }

/-- FRM.RX_LIT_BODY (R131). -/
def rxLitBody (s : State) (done : State → Res) : Res :=
  readThen .eofLit s fun b s' =>
    writeLbuf s' s'.k.toNat b fun s'' => done { s'' with k := s''.k + 1 }

/-- FRM.RX_RUN_VAL (R132). -/
def rxRunVal (s : State) (done : State → Res) : Res :=
  readThen .eofVal s fun b s' => done { s' with val := b }

end Sys2Proof.Machine
end

