-- ==== Sys2Proof/Machine/Encoder.lean ====
section
/-! DEFINITION. ENC, the encoder (40_encoder.md R88 to R96): a fixed-function unit, one operation per state of ESTATE. -/

namespace Sys2Proof.Machine

/-- ENC.START (R88). -/
def encStart (s : State) : State := { s with n := 0, i := 0, eState := .load }

/-- ENC.LOAD (R89); a byte beyond IBUF_CAP is refused (R50). -/
def encLoad (s : State) : Res :=
  inRead s fun a s' =>
    match a with
    | .byte b =>
      if s'.par.ibufCap = some s'.n then .refused .ibufFull
      else writeIbuf s' s'.n b fun s'' => .next { s'' with n := s''.n + 1 }
    | .eos => .next { s' with i := 0, eState := .scan }
    | .fail k => .next (s'.raise .rdFail (.io k))

/-- ENC.SCAN (R90), silent. -/
def encScan (s : State) : Res :=
  if s.i = s.n then .next { s with eState := .txEnd }
  else
    match measureRun s s.i Config.lenMax with
    | .error f => .fault f
    | .ok r =>
      if qualifies r then
        .next { s with runLen := BitVec.ofNat 7 r, txk := 0, eState := .txRun }
      else
        .next { s with runLen := BitVec.ofNat 7 r, litStart := s.i, litLen := 0, eState := .litAcc }

/-- ENC.EMIT_RUN (R91). -/
def encEmitRun (s : State) : Res :=
  txRun s fun s' => .next { s' with i := s'.i + s'.runLen.toNat, eState := .scan }

/-- The end of accumulation: the literal is handed to FRM (R92). -/
def closeLiteral (s : State) : State := { s with txk := 0, eState := .txLit }

/-- ENC.LIT_ACC (R92), silent; with LIT_FILL = SPLIT one step takes at most one byte, with DEFER and CHUNK one chunk
(D9). -/
def encLitAcc (s : State) : Res :=
  if s.litLen.toNat < Config.lenMax ∧ s.i < s.n then
    match measureRun s s.i Config.lookahead with
    | .error f => .fault f
    | .ok m =>
      match literalTakes s.par.litFill s.litLen.toNat m with
      | 0 => .next (closeLiteral s)
      | t + 1 =>
        .next { s with litLen := s.litLen + BitVec.ofNat 8 (t + 1), i := s.i + (t + 1) }
  else .next (closeLiteral s)

/-- ENC.EMIT_LIT (R93). -/
def encEmitLit (s : State) : Res :=
  txLit s fun s' => .next { s' with eState := .scan }

/-- ENC.FINISH (R95). -/
def encFinish (s : State) : Res :=
  txEnd s fun s' => .next { s' with eState := .flush }

/-- What a flush does to the invocation (R96, R111): OK, or FL_FAIL with the collaborator's kind (R149). -/
def flushThen (s : State) (done : State → Res) : Res :=
  outFlush s fun a s' =>
    match a with
    | .ok => done s'
    | .fail k => .next (s'.raise .flFail (.io k))

/-- ENC.FLUSH (R96). -/
def encFlush (s : State) : Res :=
  flushThen s fun s' => .next { s' with status := .ok, eState := .halt }

/-- One step of ENC, by ESTATE (R31, R103); in E_HALT no step is enabled. -/
def encTick (s : State) : Res :=
  match s.eState with
  | .load => encLoad s
  | .scan => encScan s
  | .litAcc => encLitAcc s
  | .txRun => encEmitRun s
  | .txLit => encEmitLit s
  | .txEnd => encFinish s
  | .flush => encFlush s
  | .halt => .next s

end Sys2Proof.Machine
end

