-- ==== Sys2Proof/Machine/Decoder.lean ====
section
/-! DEFINITION. DEC, the decoder (41_decoder.md R107 to R111): its steps, and the meanings of RUN, LIT and END. A meaning
takes a record whose bytes have been read (RPOS already advanced, as a program counter would be), latches its fields as
R108 to R110 do, and runs the record's own steps to its end; where an answer has not come it stops in the middle, BUSY,
and the machine goes on from there. -/

namespace Sys2Proof.Machine

/-- DEC.START (R107). -/
def decStart (s : State) : State := { s with dState := .readingHeader }

/-- Header fetch and decode (R108): the test for length 0 comes first. -/
def fetchHeader (s : State) : Res :=
  rxHdr s fun flag s' =>
    if s'.len = 0 then .next { s' with dState := .done }
    else if flag then .next { s' with dState := .emittingLiteral, dPhase := .fill, k := 0 }
    else .next { s' with dState := .emittingRun, dPhase := .fill }

/-- RUN, phase FILL (R109). -/
def runFill (s : State) : Res :=
  rxRunVal s fun s' => .next { s' with k := 0, dPhase := .drain }

/-- One byte of a record's expansion has been written: K counts it, and the record ends when K reaches LEN (R109, R110). -/
def drained (s : State) : State :=
  if s.k + 1 = s.len then { s with k := s.k + 1, dState := .readingHeader } else { s with k := s.k + 1 }

/-- RUN, phase DRAIN (R109): one copy. -/
def runDrain (s : State) : Res :=
  writeThen s.val s fun s' => .next (drained s')

/-- LIT, phase FILL (R110): one body byte. -/
def litFill (s : State) : Res :=
  rxLitBody s fun s' =>
    if s'.k = s'.len then .next { s' with k := 0, dPhase := .drain } else .next s'

/-- LIT, phase DRAIN (R110): one body byte. -/
def litDrain (s : State) : Res :=
  readLbuf s s.k.toNat fun b => writeThen b s fun s' => .next (drained s')

/-- END (R111): the flush. -/
def endFlush (s : State) : Res :=
  flushThen s fun s' => .next { s' with status := .ok }

/-- One step of DEC, by DSTATE and DPHASE (R106, R119). -/
def decTick (s : State) : Res :=
  match s.dState, s.dPhase with
  | .readingHeader, _ => fetchHeader s
  | .emittingRun, .fill => runFill s
  | .emittingRun, .drain => runDrain s
  | .emittingLiteral, .fill => litFill s
  | .emittingLiteral, .drain => litDrain s
  | .done, _ => endFlush s

/-- The record the decoder stands in, to its end or to a missing answer. A record has at most 127 reads after its header
and 127 writes. -/
def finishRecord (s : State) : Res := runWhile State.midRecord decTick 256 s

/-- RUN's fields in the decoder's registers, the value read (R108, R109): ready to drain. -/
def latchRun (count : Len) (value : Byte) (s : State) : State :=
  { s with len := count, val := value, k := 0, dState := .emittingRun, dPhase := .drain }

/-- LIT's fields in the decoder's registers, the body read (R108, R110): ready to drain. -/
def latchLit (body : List Byte) (s : State) : State :=
  { s with
    len := BitVec.ofNat 7 body.length
    lbuf := writeCells s.lbuf 0 body
    k := 0
    dState := .emittingLiteral
    dPhase := .drain }

/-- END's header read (R108): LEN = 0 whatever the flag. -/
def latchEnd (s : State) : State := { s with len := 0, dState := .done }

/-- RUN count, value (R109). -/
def execRun (count : Len) (value : Byte) (s : State) : Res :=
  if s.decoding then runWhile State.midRecord decTick count.toNat (latchRun count value s) else .next s

/-- LIT b0 ... b(l-1) (R110). -/
def execLit (body : List Byte) (s : State) : Res :=
  if s.decoding then runWhile State.midRecord decTick body.length (latchLit body s) else .next s

/-- END (R111); the flag is ignored (R76). -/
def execEnd (_flag : Bool) (s : State) : Res :=
  if s.decoding then endFlush (latchEnd s) else .next s

end Sys2Proof.Machine
end

