-- ==== Sys2Proof/Machine/Control.lean ====
section
/-! DEFINITION. CTL, the control block (10_state.md R20 to R25): taking `start`, the meanings of ENCODE and DECODE, reset
(70_reset_and_hazards.md R168), what the collaborator presents at a step, and the spec's own step (00_scope.md R11). -/

namespace Sys2Proof.Machine

/-- What taking `start` writes before ENC.START or DEC.START (R22); RPOS and WPOS are 0 at each `start` (R38). -/
def takeStart (m : Mode) (s : State) : State :=
  { s with mode := m, status := .busy, errCause := .noCause, errKind := 0, events := [] }

/-- ENCODE: `start` with `decompress` = 0 (R22, R88); ignored while BUSY (R179). -/
def execEncode (s : State) : Res :=
  if s.busy then .next s else .next (encStart (takeStart (modeOfPin false) s))

/-- DECODE: `start` with `decompress` = 1 (R22, R107); ignored while BUSY (R179). -/
def execDecode (s : State) : Res :=
  if s.busy then .next s else .next (decStart (takeStart (modeOfPin true) s))

/-- `rst` (R168): every element of the core at its reset value (R41). The streams, the events already seen and the
parameters are not elements of the core. -/
def resetCore (s : State) : State :=
  { State.reset with
    events := s.events
    inQueue := s.inQueue
    outQueue := s.outQueue
    outBuffer := s.outBuffer
    sink := s.sink
    sinkLost := s.sinkLost
    host := s.host
    par := s.par }

/-- Pins low, nothing opened, no answers. -/
def HostInput.low : HostInput :=
  { rst := false, start := false, decompress := false, fresh := false, inBeats := [], outBeats := [] }

/-- A launch (R171): fresh streams, the mode on `decompress`, `start` raised. -/
def HostInput.launch (decompress : Bool) (inBeats : List InAnswer) (outBeats : List OutAnswer) : HostInput :=
  { rst := false, start := true, decompress := decompress, fresh := true, inBeats := inBeats, outBeats := outBeats }

/-- The input stream that answers `Byte` for each byte and then `Eos` (R113). -/
def byteStream (bytes : List Byte) : List InAnswer := bytes.map .byte ++ [.eos]

/-- The collaborator opens fresh streams, if it does, and its new answers queue up behind the old (R171, R173). -/
def deliver (p : HostInput) (s : State) : State :=
  if p.fresh then
    { s with inQueue := p.inBeats, outQueue := p.outBeats, outBuffer := [], sink := [], sinkLost := false }
  else { s with inQueue := s.inQueue ++ p.inBeats, outQueue := s.outQueue ++ p.outBeats }

/-- What the control block decides at a step. -/
inductive Turn where
  /-- `rst` was taken, or nothing is to do. -/
  | settled (s : State)
  /-- `start` is taken with this value of `decompress`. -/
  | begin (decompress : Bool) (s : State)
  /-- An invocation is running: the active unit steps. -/
  | running (s : State)
  /-- The spec gives the situation no meaning. -/
  | refuse (r : Refusal)
  deriving DecidableEq, Repr

/-- The control block's turn on a sample of its inputs: `rst` first (R168), then `start` (R22), ignored while BUSY
(R179). -/
def controlTurn (p : HostInput) (s : State) : Turn :=
  if s.busy then
    if p.rst then .refuse .resetWhileBusy
    else if p.fresh then .refuse .streamsReplaced
    else .running (deliver p s)
  else if p.rst then .settled (resetCore (deliver p s))
  else if p.start then .begin p.decompress (deliver p s)
  else .settled (deliver p s)

/-- The control block's turn at this step, its sample taken from `host`. -/
def hostTurn (s : State) : Turn :=
  match s.host with
  | [] => controlTurn HostInput.low s
  | p :: ps => controlTurn p { s with host := ps }

/-- One step of the active unit (R17, R21). -/
def unitTick (s : State) : Res :=
  match s.mode with
  | .encode => encTick s
  | .decode => decTick s

/-- The spec's own step (R11): at most one stream primitive. -/
def microStep (s : State) : Res :=
  match hostTurn s with
  | .settled s' => .next s'
  | .begin decompress s' => if decompress then execDecode s' else execEncode s'
  | .running s' => unitTick s'
  | .refuse r => .refused r

/-- `k` of the spec's own steps, stopping at a fault or a refusal. -/
def microRun (k : Nat) (s : State) : Res := runWhile (fun _ => true) microStep k s

end Sys2Proof.Machine
end

