-- ==== Sys2Proof/Machine/Fetch.lean ====
section
/-! DEFINITION. What a machine step does before and around `exec`: it lets the control block take its turn, fetches the
next record of the framed stream (41_decoder.md R108; 30_encoding.md R70), or runs the fixed-function encoder. -/

namespace Sys2Proof.Machine

/-- What a machine step has to do. -/
inductive Action where
  /-- Execute an instruction. -/
  | exec (i : Instr) (s : State)
  /-- Nothing for `exec`: the step's outcome is this one. -/
  | settled (r : Res)

/-- The reads of a record's bytes, one event each (R46, R130 to R132). -/
def takeBytes : Nat → State → State
  | 0, s => s
  | n + 1, s =>
    match s.inQueue with
    | [] => s
    | a :: q => takeBytes n (s.afterRead a q)

/-- A record that is not whole on the input stream: its steps one by one, until a failure ends the invocation or an
answer is missing (R147, R150 to R152). -/
def partialRecord (s : State) : Res :=
  match fetchHeader s with
  | .next s' => finishRecord s'
  | .fault r => .fault r
  | .refused r => .refused r

/-- The decoder's action: at a header, the record that stands there is fetched whole and executed; inside a record its
execution goes on. -/
def decodeAction (s : State) : Action :=
  if s.dState = .readingHeader then
    match decodeRecord (leadingBytes s.inQueue) with
    | .ok (i, _) => .exec i (takeBytes (recordLength i) s)
    | .error _ => .settled (partialRecord s)
  else .settled (finishRecord s)

/-- What the machine does at this step. -/
def nextAction (s : State) : Action :=
  match hostTurn s with
  | .settled s' => .settled (.next s')
  | .begin decompress s' => .exec (decodeCommand decompress) s'
  | .running s' =>
    match s'.mode with
    | .encode => .settled (encTick s')
    | .decode => decodeAction s'
  | .refuse r => .settled (.refused r)

/-- The state made ready so that a record is the next thing fetched: a running decode invocation at a header, the
record's bytes next on the input stream, an `Ok` for each of its writes, and the pins low at that step. -/
def placeRecord (bytes : List Byte) (s : State) : State :=
  { s with
    mode := .decode
    status := .busy
    dState := .readingHeader
    inQueue := bytes.map .byte ++ s.inQueue
    outQueue := List.replicate longestRecord .ok ++ s.outQueue
    host := HostInput.low :: s.host }

/-- The state made ready so that a command is the next thing taken: not BUSY, `start` raised with the mode. -/
def placeCommand (decompress : Bool) (s : State) : State :=
  { s with
    status := if s.status = .busy then .idle else s.status
    host := { HostInput.low with start := true, decompress := decompress } :: s.host }

/-- The state with a code where the next step finds it. -/
def placeCode (c : Code) (s : State) : State :=
  match c with
  | .record bytes => placeRecord bytes s
  | .command decompress => placeCommand decompress s

end Sys2Proof.Machine
end

