-- ==== Sys2Proof/Machine/Step.lean ====
section
/-! DEFINITION. One step of the machine, and a table word placed where the next step fetches. -/

namespace Sys2Proof.Machine

/-- One machine step: whatever Machine/Fetch.lean decides, `exec` being called on the instruction it fetched. -/
def step (s : State) : Host.Outcome State Fault Refusal :=
  match nextAction s with
  | .exec i s' => exec i s'
  | .settled r => r

/-- `s` with a table word's instruction where `step` fetches its next one. -/
def State.withFetchWord (s : State) (nbits w : Nat) : State := placeCode (codeOfTableWord nbits w) s

end Sys2Proof.Machine
end

