-- ==== Sys2Proof/Machine/Pins.lean ====
section
/-! DEFINITION. The pins (70_reset_and_hazards.md R172; 20_memory.md R44): how a beat answers a primitive, which primitive
the core issues, and the outputs decoded from State. The step works on the primitives and needs none of them. -/

namespace Sys2Proof.Machine

/-- The inputs of an input beat (R172). -/
structure InPins where
  inData : Byte
  inEos : Bool
  inErr : Bool
  inErrkind : IoErrorKind
  deriving DecidableEq, Repr

/-- The inputs of an output beat (R172). -/
structure OutPins where
  outErr : Bool
  outErrkind : IoErrorKind
  deriving DecidableEq, Repr

/-- The answer an input beat is: `in_err` overrides `in_eos`, which overrides the data (R172). -/
def inAnswerOfPins (p : InPins) : InAnswer :=
  if p.inErr then .fail p.inErrkind else if p.inEos then .eos else .byte p.inData

/-- The answer an output beat gets (R172). -/
def outAnswerOfPins (p : OutPins) : OutAnswer :=
  if p.outErr then .fail p.outErrkind else .ok

/-- The three stream primitives (R12). -/
inductive Primitive where
  | inRead
  | outWrite (b : Byte)
  | outFlush
  deriving DecidableEq, Repr

/-- The event a primitive and its answer make. -/
def Primitive.answeredBy : Primitive → Event → Bool
  | .inRead, .rd _ => true
  | .outWrite b, .wr b' _ => decide (b = b')
  | .outFlush, .flush _ => true
  | _, _ => false

/-- The primitive ENC issues in its current state (R86); none in a silent step. -/
def encIssues (s : State) : Option Primitive :=
  match s.eState with
  | .load => some .inRead
  | .scan => none
  | .litAcc => none
  | .txRun =>
    if s.txk = 0 then some (.outWrite (hdrRun s.runLen)) else (readCell s.ibuf s.i).map .outWrite
  | .txLit =>
    if s.txk = 0 then some (.outWrite (hdrLit s.litLen))
    else (readCell s.ibuf (s.litStart + s.txk.toNat - 1)).map .outWrite
  | .txEnd => some (.outWrite hdrEnd)
  | .flush => some .outFlush
  | .halt => none

/-- The primitive DEC issues in its current state (R106). -/
def decIssues (s : State) : Option Primitive :=
  match s.dState, s.dPhase with
  | .readingHeader, _ => some .inRead
  | .emittingRun, .fill => some .inRead
  | .emittingRun, .drain => some (.outWrite s.val)
  | .emittingLiteral, .fill => some .inRead
  | .emittingLiteral, .drain => (readCell s.lbuf s.k.toNat).map .outWrite
  | .done, _ => some .outFlush

/-- The primitive the core issues: none unless BUSY (R23, R168). -/
def State.issues (s : State) : Option Primitive :=
  if s.busy then
    match s.mode with
    | .encode => encIssues s
    | .decode => decIssues s
  else none

/-- `in_ready`: high only while the core is in a step that issues `InRead()` (R172). -/
def State.inReady (s : State) : Bool := decide (s.issues = some .inRead)

/-- `out_flush`: the beat offered is a flush request (R172). -/
def State.outFlushPin (s : State) : Bool := decide (s.issues = some .outFlush)

/-- `out_data`: the byte, when the beat is a write; otherwise ignored, and the model gives it no value (R172). -/
def State.outData (s : State) : Option Byte :=
  match s.issues with
  | some (.outWrite b) => some b
  | _ => none

/-- `out_valid`: high only while the core is in a step that issues `OutWrite` or `OutFlush` (R172). -/
def State.outValid (s : State) : Bool := s.outData.isSome || s.outFlushPin

/-- `err_cause[2:0]` (R24). -/
def State.errCausePin (s : State) : BitVec 3 := s.errCause.code

/-- `err_kind` (R25). -/
def State.errKindPin (s : State) : IoErrorKind := s.errKind

end Sys2Proof.Machine
end

