-- ==== Sys2Proof/Machine/Reference.lean ====
section
/-! DEFINITION. The two reference functions of the spec: `encode(d)` (40_encoder.md R97) for each value of LIT_FILL
(92_eei_decisions.md D9), and `decode(e)` (41_decoder.md R113). The step rules do not use them. -/

namespace Sys2Proof.Machine

/-- How many of the next bytes, at most `cap`, equal `b`. -/
def sameAs (b : Byte) : Nat → List Byte → Nat
  | 0, _ => 0
  | _ + 1, [] => 0
  | cap + 1, x :: l => if x = b then sameAs b cap l + 1 else 0

/-- `run(i, cap)` at the head of what is left of the input (R87). -/
def refRun (cap : Nat) : List Byte → Nat
  | [] => 0
  | b :: l => sameAs b cap (b :: l)

/-- The length of the literal that begins at the head of `rest`, `acc` bytes of it taken already (R97's inner loop, D9). -/
def refLiteral (fill : LitFill) : Nat → Nat → List Byte → Nat
  | 0, acc, _ => acc
  | fuel + 1, acc, rest =>
    if acc < Config.lenMax ∧ rest ≠ [] then
      match literalTakes fill acc (refRun Config.lookahead rest) with
      | 0 => acc
      | t + 1 => refLiteral fill fuel (acc + (t + 1)) (rest.drop (t + 1))
    else acc

/-- R97's outer loop; each round covers at least one byte, so the length of the input is enough rounds. -/
def refEncodeFrom (fill : LitFill) : Nat → List Byte → List Byte
  | 0, _ => [hdrEnd]
  | _ + 1, [] => [hdrEnd]
  | fuel + 1, b :: l =>
    let r := refRun Config.lenMax (b :: l)
    if qualifies r then
      hdrRun (BitVec.ofNat 7 r) :: b :: refEncodeFrom fill fuel ((b :: l).drop r)
    else
      let t := refLiteral fill 128 0 (b :: l)
      hdrLit (BitVec.ofNat 8 t) :: ((b :: l).take t ++ refEncodeFrom fill fuel ((b :: l).drop t))

/-- `encode(d)` (R97). -/
def refEncode (fill : LitFill) (d : List Byte) : List Byte := refEncodeFrom fill d.length d

/-- How `decode(e)` ends (R113): the output so far, the bytes consumed, and the cause if it fails. -/
structure RefDecoded where
  out : List Byte
  consumed : Nat
  cause : ErrCause
  deriving DecidableEq, Repr

/-- R113's loop; each round consumes at least a header, so one round more than the bytes is enough. -/
def refDecodeFrom : Nat → List Byte → List Byte → Nat → RefDecoded
  | 0, _, out, p => { out := out, consumed := p, cause := .eofHdr }
  | _ + 1, [], out, p => { out := out, consumed := p, cause := .eofHdr }
  | fuel + 1, h :: rest, out, p =>
    let l := (hdrLen h).toNat
    if l = 0 then { out := out, consumed := p + 1, cause := .noCause }
    else if hdrFlag h then
      if rest.length < l then { out := out, consumed := p + 1 + rest.length, cause := .eofLit }
      else refDecodeFrom fuel (rest.drop l) (out ++ rest.take l) (p + 1 + l)
    else
      match rest with
      | [] => { out := out, consumed := p + 1, cause := .eofVal }
      | v :: rest' => refDecodeFrom fuel rest' (out ++ List.replicate l v) (p + 2)

/-- `decode(e)` (R113). -/
def refDecode (e : List Byte) : RefDecoded := refDecodeFrom (e.length + 1) e [] 0

end Sys2Proof.Machine
end

