-- ==== Sys2Proof/Safety.lean ====
section
/-! DEFINITION. What counts as a safe run: the invariant of the machine (20_memory.md R48, R49; 40_encoder.md R94;
10_state.md R24, R25), the launch premises (70_reset_and_hazards.md R174), and the orders of events the spec promises
(20_memory.md R54, R56). -/

namespace Sys2Proof.Machine

/-! ## The invariant -/

/-- Both memories are in canonical form and hold only indices that exist (R47). -/
def memOk (s : State) : Bool :=
  Memory.wf s.ibuf && Memory.wf s.lbuf && s.ibuf.all (fun c => ibufHas s.par c.1) &&
    s.lbuf.all (fun c => decide (c.1 < Config.lbufSize))

/-- ERRCAUSE is non-zero exactly while STATUS = FAIL, ERRKIND is 0 outside FAIL and for the end-of-input causes (R24,
R25). -/
def ctlOk (s : State) : Bool :=
  if s.status = .fail then
    decide (s.errCause ≠ .noCause) && (!s.errCause.isEof || decide (s.errKind = 0))
  else decide (s.errCause = .noCause) && decide (s.errKind = 0)

/-- The indices below `n` have been written. -/
def written (m : Memory) (n : Nat) : Bool := (List.range n).all fun a => (readCell m a).isSome

/-- The longest literal the encoder can build (R94; 128 under CHUNK, R133). -/
def literalMax (fill : LitFill) : Nat :=
  match fill with
  | .split => 127
  | .defer => 127
  | .chunk => 128

/-- N is within IBUF_CAP (R27). -/
def withinCap (p : Params) (n : Nat) : Bool :=
  match p.ibufCap with
  | none => true
  | some c => decide (n ≤ c)

/-- No run of three starts at I (R90, R92): a literal may take the byte there. -/
def literalOpens (s : State) : Bool :=
  match measureRun s s.i Config.lookahead with
  | .ok m => !qualifies m
  | .error _ => false

/-- The index bounds of the encoder (R94) and the discipline of IBUF (R48), by ESTATE. -/
def encOk (s : State) : Bool :=
  withinCap s.par s.n && written s.ibuf s.n &&
    match s.eState with
    | .load => true
    | .scan => decide (s.i ≤ s.n)
    | .litAcc =>
      decide (s.litStart + s.litLen.toNat = s.i ∧ s.i ≤ s.n ∧ s.litLen.toNat ≤ literalMax s.par.litFill) &&
        (decide (s.litLen ≠ 0) || literalOpens s)
    | .txRun => decide (s.i + s.runLen.toNat ≤ s.n ∧ 3 ≤ s.runLen.toNat ∧ s.txk.toNat ≤ 1)
    | .txLit =>
      decide (s.litStart + s.litLen.toNat = s.i ∧ s.i ≤ s.n ∧ 1 ≤ s.litLen.toNat ∧
        s.litLen.toNat ≤ literalMax s.par.litFill ∧ s.txk.toNat ≤ s.litLen.toNat)
    | .txEnd => decide (s.i = s.n)
    | .flush => decide (s.i = s.n)
    | .halt => false

/-- The counters of the decoder and the discipline of LBUF (R35, R37, R49), by DSTATE and DPHASE. -/
def decOk (s : State) : Bool :=
  match s.dState, s.dPhase with
  | .readingHeader, _ => true
  | .emittingRun, .fill => decide (s.len ≠ 0)
  | .emittingRun, .drain => decide (s.k.toNat < s.len.toNat)
  | .emittingLiteral, .fill => decide (s.k.toNat < s.len.toNat) && written s.lbuf s.k.toNat
  | .emittingLiteral, .drain => decide (s.k.toNat < s.len.toNat) && written s.lbuf s.len.toNat
  | .done, _ => decide (s.len = 0)

/-- The invariant of the machine. ENC's part is asked of a running encode invocation, DEC's of a running decode
invocation: outside them the registers are of no use (R156, U18). -/
def State.inv (s : State) : Bool :=
  memOk s && ctlOk s && (!s.encoding || encOk s) && (!s.decoding || decOk s)

/-! ## Orders of events -/

/-- An `InRead()` event. -/
def Event.isRead : Event → Bool
  | .rd _ => true
  | .wr _ _ => false
  | .flush _ => false

/-- An `OutFlush()` event. -/
def Event.isFlush : Event → Bool
  | .rd _ => false
  | .wr _ _ => false
  | .flush _ => true

/-- An event whose answer ends the invocation with a failure in decode mode: `Fail(k)`, or `Eos` (R142). -/
def Event.isFailing : Event → Bool
  | .rd (.byte _) => false
  | .rd .eos => true
  | .rd (.fail _) => true
  | .wr _ .ok => false
  | .wr _ (.fail _) => true
  | .flush .ok => false
  | .flush (.fail _) => true

/-- The event of a byte read. -/
def readEvent (b : Byte) : Event := .rd (.byte b)

/-- The event of a byte written. -/
def writeEvent (b : Byte) : Event := .wr b .ok

/-- R54: in an encode invocation every read comes before the first write; the reads are bytes, closed by one `Eos` before
the scan starts, or by the failure that ends the invocation. -/
def EncodeOrder (s : State) : Prop :=
  s.mode = .encode → s.status ≠ .idle →
    ∃ bs : List Byte,
      (s.status = .busy ∧ s.eState = .load ∧ s.events = bs.map readEvent) ∨
      (s.status = .fail ∧ s.errCause = .rdFail ∧ ∃ k, s.events = bs.map readEvent ++ [.rd (.fail k)]) ∨
      ((s.status = .busy → s.eState ≠ .load) ∧ s.errCause ≠ .rdFail ∧
        ∃ w : List Event, s.events = bs.map readEvent ++ .rd .eos :: w ∧ ∀ e ∈ w, e.isRead = false)

/-- R56: no flush has happened while an invocation runs; one, answered `Ok` and last, has when it ended in OK. -/
def FlushOnce (s : State) : Prop :=
  (s.status = .busy → ∀ e ∈ s.events, e.isFlush = false) ∧
  (s.status = .ok → ∃ w : List Event, s.events = w ++ [.flush .ok] ∧ ∀ e ∈ w, e.isFlush = false)

/-- The bytes a record expands to (R67 to R69). -/
def expansion : Instr → List Byte
  | .endRec _ => []
  | .run count value => List.replicate count.toNat value
  | .lit body => body
  | .encode => []
  | .decode => []

/-! ## Error kinds -/

/-- Every kind the collaborator has queued, or will queue, is a value of KIND_W bits (R7, R172). -/
def kindsFit (s : State) : Prop :=
  (∀ k, InAnswer.fail k ∈ s.inQueue → k < 2 ^ Config.kindW) ∧
  (∀ k, OutAnswer.fail k ∈ s.outQueue → k < 2 ^ Config.kindW) ∧
  (∀ p ∈ s.host, (∀ k, InAnswer.fail k ∈ p.inBeats → k < 2 ^ Config.kindW) ∧
    ∀ k, OutAnswer.fail k ∈ p.outBeats → k < 2 ^ Config.kindW)

/-! ## Launch -/

/-- The premises of an invocation just launched (R174), its input being `input`: P2 and P3 (fresh streams, positioned at
their beginning), P4 (the input fits), P5 (`rst` low: nothing is presented any more), P6 (every primitive is answered:
`oks` of them succeed on the output side). P1 held when `start` was taken, which
left ERRCAUSE and ERRKIND 0 (R22). -/
structure Launched (m : Mode) (input : List Byte) (oks : Nat) (s : State) : Prop where
  running : s.status = .busy ∧ s.mode = m
  encAtStart : m = .encode → s.eState = .load ∧ s.n = 0 ∧ s.i = 0
  decAtStart : m = .decode → s.dState = .readingHeader
  noFailure : s.errCause = .noCause ∧ s.errKind = 0
  noEvents : s.events = []
  inputReady : s.inQueue = byteStream input
  outputReady : s.outQueue = List.replicate oks .ok
  fits : m = .encode → withinCap s.par input.length = true
  quiet : s.host = []

/-! ## Isolation -/

/-- What one invocation may depend on: the control state, the collaborator's side and the parameters. -/
def sameSurroundings (s t : State) : Prop :=
  s.mode = t.mode ∧ s.status = t.status ∧ s.errCause = t.errCause ∧ s.errKind = t.errKind ∧ s.events = t.events ∧
    s.inQueue = t.inQueue ∧ s.outQueue = t.outQueue ∧ s.outBuffer = t.outBuffer ∧ s.sink = t.sink ∧
    s.sinkLost = t.sinkLost ∧ s.host = t.host ∧ s.par = t.par

/-- What an observer sees of an outcome: the observation of a next state, or the refusal; a model fault shows nothing. -/
def observeRes : Res → Option (Observation ⊕ Refusal)
  | .next s => some (.inl s.observe)
  | .fault _ => none
  | .refused r => some (.inr r)

end Sys2Proof.Machine
end

