-- ==== Sys2Proof/Certificates/Slice0/Obligations.lean ====
section
/-! DEFINITION. The statements for the provers. Each docstring names the rule of spec/ it formalises. -/

open Sys2Proof Sys2Proof.Machine

/-! ## The record format -/

/-- R62 to R69, R81: every well-formed instruction decodes from its code, and a record does so whatever bytes follow. -/
def Obligations.DecodeOfEncode : Prop :=
  (∀ i : Instr, i.wellFormed = true → decode (encode i) = .ok (i, [])) ∧
  (∀ (i : Instr) (rest : List Byte), i.isRecord = true → i.wellFormed = true →
    decodeRecord (recordBytes i ++ rest) = .ok (i, rest))

/-- R62, R72: whatever the decoder reads is a well-formed record, and the bytes it read are that record's code. -/
def Obligations.EncodeOfDecode : Prop :=
  ∀ (bytes rest : List Byte) (i : Instr), decodeRecord bytes = .ok (i, rest) →
    i.wellFormed = true ∧ i.isRecord = true ∧ bytes = recordBytes i ++ rest

/-- R72: the classification of every header value. -/
def Obligations.HeaderClassification : Prop :=
  ∀ h : Byte,
    (h = 0x00#8 ∨ h = 0x80#8 → classify h = .ending ∧ hdrLen h = 0) ∧
    (1 ≤ h.toNat ∧ h.toNat ≤ 0x7F → classify h = .run ∧ (hdrLen h).toNat = h.toNat) ∧
    (0x81 ≤ h.toNat → classify h = .literal ∧ (hdrLen h).toNat + 0x80 = h.toNat)

/-- R66: header assembly, the case of 128 included. -/
def Obligations.HeaderAssembly : Prop :=
  (∀ c : Len, (hdrRun c).toNat = c.toNat ∧ hdrFlag (hdrRun c) = false) ∧
  (∀ l : Byte, 1 ≤ l.toNat → l.toNat ≤ 127 →
    (hdrLit l).toNat = 128 + l.toNat ∧ hdrFlag (hdrLit l) = true ∧ (hdrLen (hdrLit l)).toNat = l.toNat) ∧
  hdrEnd = 0x00#8 ∧ hdrLit 128#8 = 0x80#8

/-- R70: the header alone tells the length of a record. -/
def Obligations.HeaderTellsLength : Prop :=
  ∀ (h : Byte) (rest rest' : List Byte) (i : Instr), decodeRecord (h :: rest) = .ok (i, rest') →
    (h :: rest).length =
      (if hdrLen h = 0 then 1 else if hdrFlag h = false then 2 else 1 + (hdrLen h).toNat) + rest'.length

/-- R74: no header value is rejected; bytes fail to decode only by ending too soon. -/
def Obligations.NoIllegalEncoding : Prop :=
  (∀ (h : Byte) (rest : List Byte), 127 ≤ rest.length → ∃ i rest', decodeRecord (h :: rest) = .ok (i, rest')) ∧
  (∀ (bytes : List Byte) (e : DecodeError), decodeRecord bytes = .error e →
    (bytes = [] ∧ e = .noHeader) ∨
    (∃ h, bytes = [h] ∧ classify h = .run ∧ e = .noValue) ∨
    (∃ h rest, bytes = h :: rest ∧ classify h = .literal ∧ rest.length < (hdrLen h).toNat ∧ e = .shortBody))

/-- R85: the worked encodings of the source. -/
def Obligations.WorkedEncodings : Prop :=
  decode (.record [0x03#8, 0x41#8]) = .ok (.run 3 0x41#8, []) ∧
  decode (.record [0x82#8, 0x41#8, 0x41#8]) = .ok (.lit [0x41#8, 0x41#8], []) ∧
  decode (.record [0x7F#8, 0x58#8]) = .ok (.run 127 0x58#8, []) ∧
  decode (.record [0x49#8, 0x58#8]) = .ok (.run 73 0x58#8, []) ∧
  decode (.record [0x00#8]) = .ok (.endRec false, []) ∧
  recordBytes (.run 3 0x41#8) = [0x03#8, 0x41#8] ∧ recordBytes (.lit [0x41#8, 0x41#8]) = [0x82#8, 0x41#8, 0x41#8] ∧
  recordBytes (.run 127 0x58#8) = [0x7F#8, 0x58#8] ∧ recordBytes (.run 73 0x58#8) = [0x49#8, 0x58#8] ∧
  recordBytes (.endRec false) = [0x00#8]

/-- R81: the mode flag. -/
def Obligations.ModeFlagSelects : Prop :=
  decode (.command false) = .ok (.encode, []) ∧ decode (.command true) = .ok (.decode, []) ∧
  modeOfPin false = .encode ∧ modeOfPin true = .decode

/-! ## The commands -/

/-- R22, R88: ENCODE taken, that is ENC.START as part of taking `start`. The equation fixes every element. That the event
list is emptied, so that RPOS and WPOS are 0 (R38), is the model's (log entry 6). -/
def Obligations.EncodeStarts : Prop :=
  ∀ s : State, s.status ≠ .busy →
    exec .encode s = .next { s with
      mode := .encode, status := .busy, errCause := .noCause, errKind := 0, events := [],
      n := 0, i := 0, eState := .load }

/-- R22, R107: DECODE taken, that is DEC.START as part of taking `start`. The equation fixes every element. That the event
list is emptied, so that RPOS and WPOS are 0 (R38), is the model's (log entry 6). -/
def Obligations.DecodeStarts : Prop :=
  ∀ s : State, s.status ≠ .busy →
    exec .decode s = .next { s with
      mode := .decode, status := .busy, errCause := .noCause, errKind := 0, events := [],
      dState := .readingHeader }

/-- R22, R179: `start` is taken in a step in which it is high and STATUS is not BUSY, from IDLE, OK or FAIL alike; while
BUSY, `start` and `decompress` are ignored. The model's choices here: the event list is emptied (log entry 6), and `exec`
of a command while BUSY has no effect (log entry 15). -/
def Obligations.StartIsTaken : Prop :=
  (∀ (s : State) (p : HostInput) (ps : List HostInput),
    s.host = p :: ps → s.status ≠ .busy → p.rst = false → p.start = true →
      ∃ t, step s = .next t ∧ t.mode = modeOfPin p.decompress ∧ t.status = .busy ∧ t.errCause = .noCause ∧
        t.errKind = 0 ∧ t.events = [] ∧
        (p.decompress = false → t.n = 0 ∧ t.i = 0 ∧ t.eState = .load) ∧
        (p.decompress = true → t.dState = .readingHeader)) ∧
  (∀ (s : State) (p : HostInput) (ps : List HostInput) (a b : Bool), s.status = .busy →
    step { s with host := p :: ps } = step { s with host := { p with start := a, decompress := b } :: ps }) ∧
  (∀ s : State, s.status = .busy → exec .encode s = .next s ∧ exec .decode s = .next s)

/-! ## RUN -/

/-- R109: the two phases of RUN, answer by answer. -/
def Obligations.RunPhases : Prop :=
  (∀ s : State, s.dState = .emittingRun → s.dPhase = .fill →
    (∀ b q, s.inQueue = .byte b :: q →
      decTick s = .next { s.afterRead (.byte b) q with val := b, k := 0, dPhase := .drain }) ∧
    (∀ q, s.inQueue = .eos :: q → decTick s = .next ((s.afterRead .eos q).raise .eofVal .unexpectedEof)) ∧
    (∀ k q, s.inQueue = .fail k :: q → decTick s = .next ((s.afterRead (.fail k) q).raise .rdFail (.io k)))) ∧
  (∀ s : State, s.dState = .emittingRun → s.dPhase = .drain →
    (∀ q, s.outQueue = .ok :: q →
      decTick s = .next { s.afterWrite s.val .ok q with
        k := s.k + 1, dState := if s.k + 1 = s.len then .readingHeader else .emittingRun }) ∧
    (∀ k q, s.outQueue = .fail k :: q →
      decTick s = .next ((s.afterWrite s.val (.fail k) q).raise .wrFail (.io k))))

/-- R109: RUN count, value completes: the output gains count copies of value, in as many writes. The equation fixes every
element. -/
def Obligations.RunCompletes : Prop :=
  ∀ (s : State) (count : Len) (value : Byte) (q : List OutAnswer),
    s.status = .busy → s.mode = .decode → count ≠ 0 → s.outQueue = List.replicate count.toNat .ok ++ q →
    exec (.run count value) s = .next { s with
      len := count, val := value, k := count, dState := .readingHeader, dPhase := .drain,
      outQueue := q,
      events := s.events ++ List.replicate count.toNat (.wr value .ok),
      outBuffer := s.outBuffer ++ List.replicate count.toNat value }

/-- Frame of RUN: only LEN, VAL, K, DSTATE, DPHASE, the control block's report of a failure (with the mark
it leaves on the sink, log entry 8) and the output side change; the events gained are writes; no byte of either buffer
changes. -/
def Obligations.RunFrame : Prop :=
  ∀ (s t : State) (count : Len) (value : Byte), exec (.run count value) s = .next t →
    t.mode = s.mode ∧ t.n = s.n ∧ t.i = s.i ∧ t.runLen = s.runLen ∧ t.litStart = s.litStart ∧
    t.litLen = s.litLen ∧ t.eState = s.eState ∧ t.txk = s.txk ∧ t.inQueue = s.inQueue ∧ t.sink = s.sink ∧
    t.host = s.host ∧ t.par = s.par ∧
    (∀ a, readCell t.ibuf a = readCell s.ibuf a) ∧ (∀ a, readCell t.lbuf a = readCell s.lbuf a) ∧
    (∃ w, t.events = s.events ++ w ∧ ∀ e ∈ w, ∃ a, e = .wr value a) ∧
    (t.status = .fail ∨
      (t.status = s.status ∧ t.errCause = s.errCause ∧ t.errKind = s.errKind ∧ t.sinkLost = s.sinkLost))

/-! ## LIT -/

/-- R110: the two phases of LIT, answer by answer. The address stored to is K. -/
def Obligations.LitPhases : Prop :=
  (∀ s : State, s.dState = .emittingLiteral → s.dPhase = .fill →
    (∀ b q, s.inQueue = .byte b :: q → s.k.toNat < 127 →
      decTick s = .next { s.afterRead (.byte b) q with
        lbuf := writeCell s.lbuf s.k.toNat b
        k := if s.k + 1 = s.len then 0 else s.k + 1
        dPhase := if s.k + 1 = s.len then .drain else .fill }) ∧
    (∀ q, s.inQueue = .eos :: q → decTick s = .next ((s.afterRead .eos q).raise .eofLit .unexpectedEof)) ∧
    (∀ k q, s.inQueue = .fail k :: q → decTick s = .next ((s.afterRead (.fail k) q).raise .rdFail (.io k)))) ∧
  (∀ (s : State) (b : Byte), s.dState = .emittingLiteral → s.dPhase = .drain → readCell s.lbuf s.k.toNat = some b →
    (∀ q, s.outQueue = .ok :: q →
      decTick s = .next { s.afterWrite b .ok q with
        k := s.k + 1, dState := if s.k + 1 = s.len then .readingHeader else .emittingLiteral }) ∧
    (∀ k q, s.outQueue = .fail k :: q →
      decTick s = .next ((s.afterWrite b (.fail k) q).raise .wrFail (.io k))))

/-- R110: LIT completes: the output gains the body's bytes in order. The equation fixes every element. -/
def Obligations.LitCompletes : Prop :=
  ∀ (s : State) (body : List Byte) (q : List OutAnswer),
    s.status = .busy → s.mode = .decode → (Instr.lit body).wellFormed = true →
    s.outQueue = List.replicate body.length .ok ++ q →
    exec (.lit body) s = .next { s with
      len := BitVec.ofNat 7 body.length, lbuf := writeCells s.lbuf 0 body, k := BitVec.ofNat 7 body.length,
      dState := .readingHeader, dPhase := .drain,
      outQueue := q,
      events := s.events ++ body.map writeEvent,
      outBuffer := s.outBuffer ++ body }

/-- Frame of LIT: LBUF changes only at indices 0 to l - 1, where it holds the body; everything else as for RUN, and VAL is
unchanged. -/
def Obligations.LitFrame : Prop :=
  ∀ (s t : State) (body : List Byte), exec (.lit body) s = .next t →
    t.mode = s.mode ∧ t.n = s.n ∧ t.i = s.i ∧ t.runLen = s.runLen ∧ t.litStart = s.litStart ∧
    t.litLen = s.litLen ∧ t.eState = s.eState ∧ t.txk = s.txk ∧ t.val = s.val ∧ t.inQueue = s.inQueue ∧
    t.sink = s.sink ∧ t.host = s.host ∧ t.par = s.par ∧
    (∀ a, readCell t.ibuf a = readCell s.ibuf a) ∧
    (∀ a, body.length ≤ a → readCell t.lbuf a = readCell s.lbuf a) ∧
    (s.decoding = true → ∀ a, a < body.length → readCell t.lbuf a = body[a]?) ∧
    (∃ w, t.events = s.events ++ w ∧ ∀ e ∈ w, ∃ b a, e = .wr b a) ∧
    (t.status = .fail ∨
      (t.status = s.status ∧ t.errCause = s.errCause ∧ t.errKind = s.errKind ∧ t.sinkLost = s.sinkLost))

/-! ## END -/

/-- R111, R76: END completes with a flush answered `Ok`, whatever its flag; a failing flush raises FL_FAIL. The equations
fix every element. The mark on the sink is log entry 8 (R157). That LEN and DSTATE are written inside `exec` is the model's
grouping (log entry 7). -/
def Obligations.EndCompletes : Prop :=
  ∀ (s : State) (flag : Bool), s.status = .busy → s.mode = .decode →
    (∀ q, s.outQueue = .ok :: q →
      exec (.endRec flag) s = .next { s with
        len := 0, dState := .done, status := .ok, outQueue := q,
        events := s.events ++ [.flush .ok], sink := s.sink ++ s.outBuffer, outBuffer := [] }) ∧
    (∀ k q, s.outQueue = .fail k :: q →
      exec (.endRec flag) s = .next { s with
        len := 0, dState := .done, status := .fail, errCause := .flFail, errKind := k, sinkLost := true, outQueue := q,
        events := s.events ++ [.flush (.fail k)] })

/-- Frame of END and of the two commands, in every state. -/
def Obligations.EndAndCommandFrame : Prop :=
  (∀ (s t : State) (flag : Bool), exec (.endRec flag) s = .next t →
    t.mode = s.mode ∧ t.n = s.n ∧ t.i = s.i ∧ t.runLen = s.runLen ∧ t.litStart = s.litStart ∧
    t.litLen = s.litLen ∧ t.eState = s.eState ∧ t.txk = s.txk ∧ t.dPhase = s.dPhase ∧ t.val = s.val ∧
    t.k = s.k ∧ t.inQueue = s.inQueue ∧ t.host = s.host ∧ t.par = s.par ∧
    t.writeTrace = s.writeTrace ∧ t.rpos = s.rpos ∧
    (t.events = s.events ∨ ∃ a, t.events = s.events ++ [.flush a]) ∧
    (t.status = .fail ∨ (t.errCause = s.errCause ∧ t.errKind = s.errKind ∧ t.sinkLost = s.sinkLost)) ∧
    (∀ a, readCell t.ibuf a = readCell s.ibuf a) ∧ (∀ a, readCell t.lbuf a = readCell s.lbuf a)) ∧
  (∀ (s t : State) (i : Instr), i = .encode ∨ i = .decode → exec i s = .next t →
    t.runLen = s.runLen ∧ t.litStart = s.litStart ∧ t.litLen = s.litLen ∧ t.txk = s.txk ∧ t.dPhase = s.dPhase ∧
    t.len = s.len ∧ t.val = s.val ∧ t.k = s.k ∧ t.inQueue = s.inQueue ∧ t.outQueue = s.outQueue ∧
    t.outBuffer = s.outBuffer ∧ t.sink = s.sink ∧ t.sinkLost = s.sinkLost ∧ t.host = s.host ∧ t.par = s.par ∧
    (i = .encode → t.dState = s.dState) ∧
    (i = .decode → t.n = s.n ∧ t.i = s.i ∧ t.eState = s.eState) ∧
    (∀ a, readCell t.ibuf a = readCell s.ibuf a) ∧ (∀ a, readCell t.lbuf a = readCell s.lbuf a))

/-! ## A step runs the decoded instruction -/

/-- The machine step around `exec`: after the control block's turn, a record standing whole on the input stream is
executed with its bytes read (one event each), and a `start` taken executes the command. One machine step per record is the model's
choice (log entry 7). -/
def Obligations.StepRunsDecoded : Prop :=
  (∀ (s s1 : State) (i : Instr) (q : List InAnswer),
    hostTurn s = .running s1 → s1.mode = .decode → s1.dState = .readingHeader →
    i.isRecord = true → i.wellFormed = true → s1.inQueue = (recordBytes i).map .byte ++ q →
    step s = exec i { s1 with inQueue := q, events := s1.events ++ (recordBytes i).map readEvent }) ∧
  (∀ (s s1 : State) (decompress : Bool), hostTurn s = .begin decompress s1 →
    step s = exec (if decompress then .decode else .encode) s1)

/-- R38: what a record does to the two positions, and what it writes, in one machine step. One machine step per record is the model's choice (log entry 7). -/
def Obligations.RecordAdvancesPositions : Prop :=
  ∀ (s : State) (i : Instr) (q : List InAnswer) (r : List OutAnswer),
    s.status = .busy → s.mode = .decode → s.dState = .readingHeader → s.host = [] →
    i.isRecord = true → i.wellFormed = true →
    s.inQueue = (recordBytes i).map .byte ++ q → s.outQueue = List.replicate 127 .ok ++ r →
    ∃ t, step s = .next t ∧ t.rpos = s.rpos + recordLength i ∧ t.wpos = s.wpos + (expansion i).length ∧
      t.writeTrace = s.writeTrace ++ expansion i ∧ t.inQueue = q

/-! ## Failures -/

/-- R150: the stream ends where a header is due. The step is the machine's (log entry 7). The mark on the sink is log entry 8 (R157). -/
def Obligations.MissingHeader : Prop :=
  ∀ (s : State) (q : List InAnswer),
    s.status = .busy → s.mode = .decode → s.dState = .readingHeader → s.host = [] → s.inQueue = .eos :: q →
    step s = .next { s with
      status := .fail, errCause := .eofHdr, errKind := 0, sinkLost := true, inQueue := q, events := s.events ++ [.rd .eos] }

/-- R151: the stream ends inside a literal: the body bytes read are consumed and none is written; cause 5. -/
def Obligations.TruncatedLiteral : Prop :=
  ErrCause.eofLit.code = 5 ∧
  (∀ (s : State) (q : List InAnswer),
    s.decoding = true → s.dState = .emittingLiteral → s.dPhase = .fill → s.inQueue = .eos :: q →
    ∃ t, unitTick s = .next t ∧ t = (s.afterRead .eos q).raise .eofLit .unexpectedEof ∧
      t.status = .fail ∧ t.errCause = .eofLit ∧ t.errKind = 0 ∧ t.events = s.events ++ [.rd .eos] ∧
      t.outQueue = s.outQueue) ∧
  ∀ (s : State) (h : Byte) (body : List Byte) (q : List InAnswer),
    s.status = .busy → s.mode = .decode → s.dState = .readingHeader → s.host = [] →
    classify h = .literal → body.length < (hdrLen h).toNat →
    s.inQueue = (h :: body).map .byte ++ .eos :: q →
    ∃ t, microRun (body.length + 2) s = .next t ∧ t.status = .fail ∧ t.errCause = .eofLit ∧ t.errKind = 0 ∧
      t.dState = .emittingLiteral ∧ t.dPhase = .fill ∧ t.k.toNat = body.length ∧ t.len = hdrLen h ∧
      t.rpos = s.rpos + 1 + body.length ∧ t.writeTrace = s.writeTrace ∧
      t.events = s.events ++ (h :: body).map readEvent ++ [.rd .eos]

/-- R152: a run header with no value byte after it; cause 6. -/
def Obligations.MissingRunValue : Prop :=
  ErrCause.eofVal.code = 6 ∧
  (∀ (s : State) (q : List InAnswer),
    s.decoding = true → s.dState = .emittingRun → s.dPhase = .fill → s.inQueue = .eos :: q →
    ∃ t, unitTick s = .next t ∧ t = (s.afterRead .eos q).raise .eofVal .unexpectedEof ∧
      t.status = .fail ∧ t.errCause = .eofVal ∧ t.errKind = 0 ∧ t.events = s.events ++ [.rd .eos] ∧
      t.outQueue = s.outQueue) ∧
  ∀ (s : State) (h : Byte) (q : List InAnswer),
    s.status = .busy → s.mode = .decode → s.dState = .readingHeader → s.host = [] →
    classify h = .run → s.inQueue = .byte h :: .eos :: q →
    ∃ t, microRun 2 s = .next t ∧ t.status = .fail ∧ t.errCause = .eofVal ∧ t.errKind = 0 ∧
      t.rpos = s.rpos + 1 ∧ t.writeTrace = s.writeTrace ∧ t.outQueue = s.outQueue

/-- R156: raising writes ERRCAUSE, ERRKIND and STATUS and nothing else of the core, and afterwards no unit steps. The one
other field written is the collaborator's mark that its sink now holds any value (R157; the mark is log entry 8). -/
def Obligations.RaiseWritesThree : Prop :=
  (∀ (s : State) (cause : ErrCause) (kind : FailKind),
    s.raise cause kind = { s with
      errCause := cause
      errKind :=
        if cause = .rdFail ∨ cause = .wrFail ∨ cause = .flFail then
          (match kind with | .io k => k | .unexpectedEof => 0)
        else 0
      status := .fail
      sinkLost := true }) ∧
  (∀ s : State, s.status = .fail →
    (s.host = [] → step s = .next s) ∧
    (∀ p ps, s.host = p :: ps → p.rst = false → p.start = false →
      ∃ t, step s = .next t ∧ t.status = .fail ∧ t.events = s.events))

/-- R148: whichever write the core has issued, a failing answer raises WR_FAIL with the kind unchanged, and the byte is
not in the write trace. -/
def Obligations.WriteFailure : Prop :=
  ∀ (s : State) (b : Byte) (k : IoErrorKind) (q : List OutAnswer),
    s.issues = some (.outWrite b) → s.outQueue = .fail k :: q →
    ∃ t, unitTick s = .next t ∧
      t = (s.afterWrite b (.fail k) q).raise .wrFail (.io k) ∧
      t.status = .fail ∧ t.errCause = .wrFail ∧ t.errKind = k ∧ t.events = s.events ++ [.wr b (.fail k)] ∧
      t.writeTrace = s.writeTrace

/-- R147, R149: a failing answer to a read or to the flush raises RD_FAIL or FL_FAIL with the kind unchanged. The mark on
the sink is log entry 8 (R157). -/
def Obligations.ReadAndFlushFailure : Prop :=
  (∀ (s : State) (k : IoErrorKind) (q : List InAnswer),
    s.issues = some .inRead → s.inQueue = .fail k :: q →
    unitTick s = .next { s with
      status := .fail, errCause := .rdFail, errKind := k, sinkLost := true, inQueue := q,
      events := s.events ++ [.rd (.fail k)] }) ∧
  (∀ (s : State) (k : IoErrorKind) (q : List OutAnswer),
    s.issues = some .outFlush → s.outQueue = .fail k :: q →
    unitTick s = .next { s with
      status := .fail, errCause := .flFail, errKind := k, sinkLost := true, outQueue := q,
      events := s.events ++ [.flush (.fail k)] })

/-- R109, R110, R134: a write that fails after j good ones ends the record there: j bytes of its expansion are in the
write trace and K holds j. -/
def Obligations.DrainFailureLeavesPart : Prop :=
  ∀ (s : State) (i : Instr) (j : Nat) (k : IoErrorKind) (q : List OutAnswer),
    s.status = .busy → s.mode = .decode → i.wellFormed = true → j < (expansion i).length →
    s.outQueue = List.replicate j .ok ++ .fail k :: q →
    ∃ t, exec i s = .next t ∧ t.status = .fail ∧ t.errCause = .wrFail ∧ t.errKind = k ∧
      t.writeTrace = s.writeTrace ++ (expansion i).take j ∧ t.k.toNat = j ∧ t.outQueue = q

/-- R104: the failures of the encoder; `Eos` ends the load phase normally, and no byte is rejected for its value. -/
def Obligations.EncoderFailures : Prop :=
  (∀ s t : State, s.encoding = true → unitTick s = .next t → t.status = .fail →
    (t.errCause = .rdFail ∧ s.eState = .load) ∨
    (t.errCause = .wrFail ∧ (s.eState = .txRun ∨ s.eState = .txLit ∨ s.eState = .txEnd)) ∨
    (t.errCause = .flFail ∧ s.eState = .flush)) ∧
  (∀ (s : State) (q : List InAnswer), s.encoding = true → s.eState = .load → s.inQueue = .eos :: q →
    ∃ t, unitTick s = .next t ∧ t.status = .busy ∧ t.eState = .scan) ∧
  (∀ (s : State) (b : Byte) (q : List InAnswer), s.encoding = true → s.eState = .load → s.par.ibufCap = none →
    s.inQueue = .byte b :: q → ∃ t, unitTick s = .next t ∧ t.status = .busy)

/-- R120: the failures of the decoder, each in its state. -/
def Obligations.DecoderFailures : Prop :=
  ∀ s t : State, s.decoding = true → unitTick s = .next t → t.status = .fail →
    (t.errCause = .eofHdr ∧ s.dState = .readingHeader) ∨
    (t.errCause = .eofVal ∧ s.dState = .emittingRun ∧ s.dPhase = .fill) ∨
    (t.errCause = .eofLit ∧ s.dState = .emittingLiteral ∧ s.dPhase = .fill) ∨
    (t.errCause = .rdFail ∧ (s.dState = .readingHeader ∨
      ((s.dState = .emittingRun ∨ s.dState = .emittingLiteral) ∧ s.dPhase = .fill))) ∨
    (t.errCause = .wrFail ∧ (s.dState = .emittingRun ∨ s.dState = .emittingLiteral) ∧ s.dPhase = .drain) ∨
    (t.errCause = .flFail ∧ s.dState = .done)

/-! ## The encoder -/

/-- R89: ENC.LOAD, answer by answer. The refusal is the model's (log entry 11). -/
def Obligations.LoadStep : Prop :=
  ∀ s : State, s.eState = .load →
    (∀ b q, s.inQueue = .byte b :: q → s.par.ibufCap = some s.n → encTick s = .refused .ibufFull) ∧
    (∀ b q, s.inQueue = .byte b :: q → withinCap s.par (s.n + 1) = true →
      encTick s = .next { s.afterRead (.byte b) q with ibuf := writeCell s.ibuf s.n b, n := s.n + 1 }) ∧
    (∀ q, s.inQueue = .eos :: q → encTick s = .next { s.afterRead .eos q with i := 0, eState := .scan }) ∧
    (∀ k q, s.inQueue = .fail k :: q → encTick s = .next ((s.afterRead (.fail k) q).raise .rdFail (.io k)))

/-- R87: `run(i, cap)` is the largest k with 1 ≤ k ≤ cap and i + k ≤ N such that the k bytes from i on are equal; and the
three facts the rule derives. -/
def Obligations.RunMeasurement : Prop :=
  ∀ (s : State) (i : Nat), i < s.n → (∀ a, a < s.n → ∃ b, readCell s.ibuf a = some b) →
    (∀ cap, 1 ≤ cap → ∃ r, measureRun s i cap = .ok r ∧ 1 ≤ r ∧ r ≤ cap ∧ i + r ≤ s.n ∧
      (∀ j, j < r → readCell s.ibuf (i + j) = readCell s.ibuf i) ∧
      (r < cap → i + r < s.n → readCell s.ibuf (i + r) ≠ readCell s.ibuf i)) ∧
    (∀ r r', measureRun s i 127 = .ok r → measureRun s i 3 = .ok r' →
      r' = min 3 r ∧ (3 ≤ r' ↔ 3 ≤ r) ∧ (r' = 2 → measureRun s (i + 1) 3 = .ok 1))

/-- R90: ENC.SCAN, with the measure m at I. -/
def Obligations.ScanStep : Prop :=
  ∀ s : State, s.eState = .scan →
    (s.i = s.n → encTick s = .next { s with eState := .txEnd }) ∧
    (∀ m, s.i ≠ s.n → measureRun s s.i 127 = .ok m → 3 ≤ m →
      encTick s = .next { s with runLen := BitVec.ofNat 7 m, txk := 0, eState := .txRun }) ∧
    (∀ m, s.i ≠ s.n → measureRun s s.i 127 = .ok m → m < 3 →
      encTick s = .next { s with
        runLen := BitVec.ofNat 7 m, litStart := s.i, litLen := 0, eState := .litAcc })

/-- R92 and D9: ENC.LIT_ACC under each value of LIT_FILL, m being the capped measure at I. -/
def Obligations.LiteralAccumulation : Prop :=
  ∀ (s : State), s.eState = .litAcc →
    (127 ≤ s.litLen.toNat ∨ s.n ≤ s.i → encTick s = .next { s with txk := 0, eState := .txLit }) ∧
    (∀ m, s.litLen.toNat < 127 → s.i < s.n → measureRun s s.i 3 = .ok m →
      (3 ≤ m → encTick s = .next { s with txk := 0, eState := .txLit }) ∧
      (m < 3 → s.par.litFill = .split →
        encTick s = .next { s with litLen := s.litLen + 1, i := s.i + 1 }) ∧
      (m < 3 → s.par.litFill = .defer → 127 < s.litLen.toNat + m →
        encTick s = .next { s with txk := 0, eState := .txLit }) ∧
      (m < 3 → 1 ≤ m → (s.par.litFill = .defer ∧ s.litLen.toNat + m ≤ 127) ∨ s.par.litFill = .chunk →
        encTick s = .next { s with litLen := s.litLen + BitVec.ofNat 8 m, i := s.i + m }))

/-- R91, R127: a run record is its two bytes; then I has advanced by RUNLEN. A failing write leaves I. -/
def Obligations.EmitRun : Prop :=
  ∀ (s : State) (b : Byte), s.encoding = true → s.eState = .txRun → s.txk = 0 → s.host = [] →
    readCell s.ibuf s.i = some b →
    (∀ q, s.outQueue = .ok :: .ok :: q →
      microRun 2 s = .next { s with
        txk := 1, i := s.i + s.runLen.toNat, eState := .scan, outQueue := q,
        events := s.events ++ [.wr (hdrRun s.runLen) .ok, .wr b .ok],
        outBuffer := s.outBuffer ++ [hdrRun s.runLen, b] }) ∧
    (∀ k q, s.outQueue = .fail k :: q →
      ∃ t, microRun 1 s = .next t ∧ t.status = .fail ∧ t.errCause = .wrFail ∧ t.errKind = k ∧ t.i = s.i ∧
        t.writeTrace = s.writeTrace) ∧
    (∀ k q, s.outQueue = .ok :: .fail k :: q →
      ∃ t, microRun 2 s = .next t ∧ t.status = .fail ∧ t.errCause = .wrFail ∧ t.errKind = k ∧ t.i = s.i ∧
        t.writeTrace = s.writeTrace ++ [hdrRun s.runLen])

/-- R93, R128: a literal record is its header and then its LITLEN bytes in order; I is not changed. -/
def Obligations.EmitLit : Prop :=
  ∀ (s : State) (body : List Byte) (q : List OutAnswer),
    s.encoding = true → s.eState = .txLit → s.txk = 0 → s.host = [] →
    s.litLen.toNat = body.length → 1 ≤ body.length → body.length ≤ literalMax s.par.litFill →
    (∀ j, j < body.length → readCell s.ibuf (s.litStart + j) = body[j]?) →
    s.outQueue = List.replicate (1 + body.length) .ok ++ q →
    microRun (1 + body.length) s = .next { s with
      txk := s.litLen, eState := .scan, outQueue := q,
      events := s.events ++ .wr (hdrLit s.litLen) .ok :: body.map writeEvent,
      outBuffer := s.outBuffer ++ hdrLit s.litLen :: body }

/-- R95, R96, R129: the terminator 0x00, then the flush, then OK. -/
def Obligations.FinishAndFlush : Prop :=
  ∀ (s : State) (q : List OutAnswer), s.encoding = true → s.eState = .txEnd → s.host = [] →
    s.outQueue = .ok :: .ok :: q →
    microRun 2 s = .next { s with
      status := .ok, eState := .halt, outQueue := q,
      events := s.events ++ [.wr 0x00#8 .ok, .flush .ok],
      sink := s.sink ++ (s.outBuffer ++ [0x00#8]), outBuffer := [] }

/-- R102: the empty input. -/
def Obligations.EmptyInput : Prop :=
  ∀ (s : State) (q : List InAnswer) (r : List OutAnswer),
    s.encoding = true → s.eState = .load → s.n = 0 → s.host = [] →
    s.inQueue = .eos :: q → s.outQueue = .ok :: .ok :: r →
    ∃ t, microRun 4 s = .next t ∧ t.status = .ok ∧
      t.events = s.events ++ [.rd .eos, .wr 0x00#8 .ok, .flush .ok]

/-! ## Control, reset, status -/

/-- R41, the values the spec states for reset. RPOS and WPOS at reset are the model's (log entry 6). -/
def Obligations.ResetValues : Prop :=
  State.reset.mode = .encode ∧ State.reset.status = .idle ∧ State.reset.errCause = .noCause ∧
  State.reset.errKind = 0 ∧ State.reset.n = 0 ∧ State.reset.i = 0 ∧ State.reset.eState = .halt ∧
  State.reset.dState = .readingHeader ∧ State.reset.rpos = 0 ∧ State.reset.wpos = 0

/-- R168, R169: `rst` outside an invocation puts the core at its reset values, whatever `start` says, with no event; while
BUSY the model refuses it by name, as the spec gives it no meaning. The refusal (log entry 9) and that
the events stay (log entry 16) are the model's. -/
def Obligations.ResetInput : Prop :=
  ∀ (s : State) (p : HostInput) (ps : List HostInput), s.host = p :: ps → p.rst = true →
    (s.status ≠ .busy → ∃ t, step s = .next t ∧ t.mode = .encode ∧ t.status = .idle ∧ t.errCause = .noCause ∧
      t.errKind = 0 ∧ t.n = 0 ∧ t.i = 0 ∧ t.eState = .halt ∧ t.dState = .readingHeader ∧ t.events = s.events) ∧
    (s.status = .busy → step s = .refused .resetWhileBusy)

/-- R167, R168: outside an invocation the core does nothing until `start`. The collaborator's queues are the model's (log
entry 6). -/
def Obligations.IdleUntilStart : Prop :=
  ∀ s : State, s.status ≠ .busy →
    (s.host = [] → step s = .next s) ∧
    (∀ p ps, s.host = p :: ps → p.rst = false → p.start = false → p.fresh = false →
      step s = .next { s with
        host := ps, inQueue := s.inQueue ++ p.inBeats, outQueue := s.outQueue ++ p.outBeats })

/-- R23: the three outputs, exactly one of them high unless STATUS = IDLE. -/
def Obligations.StatusOutputs : Prop :=
  ∀ s : State,
    (s.busy = true ↔ s.status.code = 1) ∧ (s.done = true ↔ s.status.code = 2) ∧
    (s.failed = true ↔ s.status.code = 3) ∧
    (s.status = .idle → s.busy = false ∧ s.done = false ∧ s.failed = false) ∧
    (s.status ≠ .idle →
      (s.busy = true ∧ s.done = false ∧ s.failed = false) ∨ (s.busy = false ∧ s.done = true ∧ s.failed = false) ∨
      (s.busy = false ∧ s.done = false ∧ s.failed = true))

/-- R23, D4, D19: who writes STATUS. -/
def Obligations.StatusLifeCycle : Prop :=
  ∀ s t : State, microStep s = .next t →
    t.status = s.status ∨
    (s.status ≠ .busy ∧ t.status = .busy ∧ ∃ p ps, s.host = p :: ps ∧ p.start = true ∧ p.rst = false) ∨
    (s.status = .busy ∧ t.status = .ok ∧ t.events = s.events ++ [.flush .ok]) ∨
    (s.status = .busy ∧ t.status = .fail ∧ ∃ e, t.events = s.events ++ [e] ∧ e.isFailing = true) ∨
    (s.status ≠ .busy ∧ t.status = .idle ∧ ∃ p ps, s.host = p :: ps ∧ p.rst = true)

/-! ## Steps and events -/

/-- R11: a step is silent or performs exactly one primitive, the one the core issues; taking `start` makes no event and
begins a new sequence. That taking `start` empties the events is the model's (log entry 6). -/
def Obligations.OneEventPerStep : Prop :=
  ∀ s t : State, microStep s = .next t →
    t.events = s.events ∨
    (s.status = .busy ∧ ∃ prim e, s.issues = some prim ∧ prim.answeredBy e = true ∧ t.events = s.events ++ [e]) ∨
    (s.status ≠ .busy ∧ t.status = .busy ∧ t.events = [])

/-- The machine step is a whole number of the spec's own steps (R11), whenever the collaborator
presents at most one sample, so that starts, resets and deliveries are covered. The grouping is the
model's choice (log entry 7). -/
def Obligations.StepIsMicroSteps : Prop :=
  ∀ s : State, s.host.length ≤ 1 → ∃ k, microRun k s = step s

/-- R186, R53: a primitive that is not answered leaves the core waiting, unchanged. An empty queue for a missing
answer is the model's (log entry 6). -/
def Obligations.WaitingChangesNothing : Prop :=
  ∀ s : State, s.host = [] →
    (s.issues = some .inRead → s.inQueue = [] → step s = .next s ∧ microStep s = .next s) ∧
    ((s.issues = some .outFlush ∨ ∃ b, s.issues = some (.outWrite b)) → s.outQueue = [] →
      step s = .next s ∧ microStep s = .next s)

/-- R54 as an invariant: in an encode invocation all reads precede all writes. -/
def Obligations.ReadsBeforeWrites : Prop :=
  ∀ s t : State, s.inv = true → EncodeOrder s → step s = .next t → EncodeOrder t

/-- R56 as an invariant: the flush happens once, last, before OK. -/
def Obligations.FlushIsLast : Prop :=
  ∀ s t : State, FlushOnce s → step s = .next t → FlushOnce t

/-- R25, R7: ERRKIND stays within KIND_W bits as long as the collaborator's kinds do. KIND_W is opaque (log entry 3). -/
def Obligations.ErrKindFits : Prop :=
  ∀ s t : State, kindsFit s → s.errKind < 2 ^ Config.kindW → step s = .next t →
    kindsFit t ∧ t.errKind < 2 ^ Config.kindW

/-- R17, the half about writes: a step of ENC writes none of DEC's elements and a step of DEC none of ENC's and FRM's; IBUF
and N are written by the load phase alone (R26, R27); MODE, the parameters and the pins' samples are written by neither
unit (R40). What a unit may read of the other is not said here: InvocationsAreIndependent speaks of that. -/
def Obligations.UnitsAreSeparate : Prop :=
  ∀ s t : State, unitTick s = .next t →
    t.mode = s.mode ∧ t.par = s.par ∧ t.host = s.host ∧
    (s.mode = .decode → t.ibuf = s.ibuf ∧ t.n = s.n ∧ t.i = s.i ∧ t.runLen = s.runLen ∧ t.litStart = s.litStart ∧
      t.litLen = s.litLen ∧ t.eState = s.eState ∧ t.txk = s.txk) ∧
    (s.mode = .encode → t.lbuf = s.lbuf ∧ t.dState = s.dState ∧ t.dPhase = s.dPhase ∧ t.len = s.len ∧
      t.val = s.val ∧ t.k = s.k) ∧
    (s.mode = .encode → s.eState ≠ .load → t.ibuf = s.ibuf ∧ t.n = s.n)

/-! ## The invariant -/

/-- The invariant holds at reset. It rests on the model's reset (log entries 1 and 2). -/
def Obligations.InvariantAtReset : Prop := State.reset.inv = true

/-- R47 to R49, R94, R24, R25: every step keeps the invariant. -/
def Obligations.StepKeepsInvariant : Prop :=
  ∀ s t : State, s.inv = true → step s = .next t → t.inv = true

/-- R48, R49: no rule reads a byte it has not written, so from the invariant no step faults. The faults are the model's (log
entry 2). -/
def Obligations.NoFaultUnderInvariant : Prop :=
  ∀ (s : State) (f : Fault), s.inv = true → step s ≠ .fault f

/-- R50, R169, R178: the only steps with no meaning. The refusals are the model's treatment (log entries 9, 10, 11). -/
def Obligations.RefusalsAreTheSpecs : Prop :=
  ∀ (s : State) (r : Refusal),
    (step s = .refused r ↔
      (r = .resetWhileBusy ∧ s.status = .busy ∧ ∃ p ps, s.host = p :: ps ∧ p.rst = true) ∨
      (r = .streamsReplaced ∧ s.status = .busy ∧
        ∃ p ps, s.host = p :: ps ∧ p.rst = false ∧ p.fresh = true) ∨
      (r = .ibufFull ∧ ∃ s1, hostTurn s = .running s1 ∧ s1.mode = .encode ∧ s1.eState = .load ∧
        s1.par.ibufCap = some s1.n ∧ ∃ b q, s1.inQueue = .byte b :: q))

/-! ## Whole invocations -/

/-- R116: the round-trip law, with LIT_FILL = SPLIT or DEFER, and its failure with CHUNK. -/
def Obligations.RoundTripLaw : Prop :=
  (∀ (fill : LitFill) (d : List Byte), fill ≠ .chunk →
    refDecode (refEncode fill d) = { out := d, consumed := (refEncode fill d).length, cause := .noCause }) ∧
  ¬ ∀ d : List Byte, (refDecode (refEncode .chunk d)).out = d

/-- R98 (a) to (d): the encoder's output is a sequence of canonical records and one 0x00, and their expansions are the
input. -/
def Obligations.EncoderOutputIsCanonical : Prop :=
  ∀ d : List Byte, ∃ records : List Instr,
    refEncode .split d = records.flatMap recordBytes ++ [0x00#8] ∧
    (∀ i ∈ records, (∃ c v, i = .run c v ∧ 3 ≤ c.toNat) ∨
      (∃ body, i = .lit body ∧ 1 ≤ body.length ∧ body.length ≤ 127)) ∧
    records.flatMap expansion = d

/-- R97: an encode invocation in which no primitive fails: its events are the reads of d, `Eos`, the writes of encode(d),
and the flush. -/
def Obligations.EncodeInvocation : Prop :=
  ∀ (s : State) (d : List Byte) (m : Nat), Launched .encode d m s → (refEncode s.par.litFill d).length + 1 ≤ m →
    ∃ k t, Host.Core.run Sys2Proof.core k s = .next t ∧ t.status = .ok ∧
      t.events = d.map readEvent ++ [.rd .eos] ++ (refEncode s.par.litFill d).map writeEvent ++ [.flush .ok] ∧
      t.writeTrace = refEncode s.par.litFill d

/-- R113: a decode invocation in which no write or flush fails behaves as decode(e). -/
def Obligations.DecodeInvocation : Prop :=
  ∀ (s : State) (e : List Byte) (m : Nat), Launched .decode e m s → (refDecode e).out.length + 1 ≤ m →
    ∃ k t, Host.Core.run Sys2Proof.core k s = .next t ∧
      t.status = (if (refDecode e).cause = .noCause then .ok else .fail) ∧
      t.errCause = (refDecode e).cause ∧ t.errKind = 0 ∧
      t.writeTrace = (refDecode e).out ∧ t.rpos = (refDecode e).consumed ∧
      ((refDecode e).cause = .noCause → t.inQueue = byteStream (e.drop (refDecode e).consumed))

/-- R17: "nothing of one invocation is visible in the next": two cores that agree on the control state, the
collaborator's side and the parameters, whatever their working registers and buffers hold, show the same observations
once a command has been taken, for any number of the spec's steps. -/
def Obligations.InvocationsAreIndependent : Prop :=
  ∀ (s1 s2 t1 t2 : State) (i : Instr) (k : Nat),
    sameSurroundings s1 s2 → s1.status ≠ .busy → i = .encode ∨ i = .decode →
    exec i s1 = .next t1 → exec i s2 = .next t2 →
    (observeRes (microRun k t1) = observeRes (microRun k t2) ∧ observeRes (microRun k t1) ≠ none)

/-! ## The sink after a failure -/

/-- R157, U3: once an invocation has failed, what the sink holds is the free value, through resets and further starts, until
the collaborator opens fresh streams (R171); then the new sink is empty. The free value and the mark that carries it are
the model's (log entry 8). -/
def Obligations.SinkUnknownAfterFailure : Prop :=
  (∀ s t : State, s.status = .busy → step s = .next t → t.status = .fail →
    ∀ m, t.sinkContent m = Config.freeSink m) ∧
  (∀ s t : State, s.sinkLost = true → step s = .next t → (∀ p ps, s.host = p :: ps → p.fresh = false) →
    ∀ m, t.sinkContent m = Config.freeSink m) ∧
  (∀ (s : State) (p : HostInput) (ps : List HostInput), s.status ≠ .busy → s.host = p :: ps → p.fresh = true →
    ∃ t, step s = .next t ∧ ∀ m, t.sinkContent m = [])
end

