-- ==== Sys2Proof/Laws/Memory.lean ====
section
/-! SUPPORT. The byte memories: read after write, and that every memory operation keeps the canonical form. -/

namespace Sys2Proof.Machine

@[simp] theorem readCell_writeCell_same (m : Memory) (a : Nat) (b : Byte) :
    readCell (writeCell m a b) a = some b := by
  induction m with
  | nil => simp [writeCell, readCell]
  | cons c m ih =>
    unfold writeCell
    split
    · simp [readCell]
    · split
      · simp [readCell]
      · rename_i h
        simp [readCell, h, ih]

theorem readCell_writeCell_other (m : Memory) {a x : Nat} (b : Byte) (h : x ≠ a) :
    readCell (writeCell m a b) x = readCell m x := by
  have h' : ¬a = x := fun e => h e.symm
  induction m with
  | nil => simp [writeCell, readCell, h']
  | cons c m ih =>
    unfold writeCell
    split
    · simp [readCell, h']
    · split
      · rename_i e
        have : ¬c.1 = x := by omega
        simp [readCell, h', this]
      · simp [readCell, ih]

/-- Every index of a memory is above the bound. -/
def Memory.above (x : Nat) (m : Memory) : Prop := ∀ c ∈ m, x < c.1

theorem Memory.wf_cons (c : Host.Cell) (m : Memory) :
    Memory.wf (c :: m) = true ↔ Memory.above c.1 m ∧ Memory.wf m = true := by
  induction m generalizing c with
  | nil => simp [Memory.wf, Memory.above]
  | cons d m ih =>
    have hd := ih d
    simp only [Memory.wf, Bool.and_eq_true, decide_eq_true_eq, Memory.above, List.mem_cons, forall_eq_or_imp]
    constructor
    · rintro ⟨hcd, hw⟩
      have ha := (hd.mp hw).1
      exact ⟨⟨hcd, fun e he => lt_trans hcd (ha e he)⟩, hw⟩
    · rintro ⟨⟨hcd, -⟩, hw⟩
      exact ⟨hcd, hw⟩

theorem writeCell_above {m : Memory} {x a : Nat} (b : Byte) (hm : Memory.above x m) (ha : x < a) :
    Memory.above x (writeCell m a b) := by
  induction m with
  | nil => simpa [writeCell, Memory.above] using ha
  | cons c m ih =>
    have hc : x < c.1 := hm c (by simp)
    have hm' : Memory.above x m := fun e he => hm e (by simp [he])
    intro e he
    unfold writeCell at he
    split at he
    · rcases List.mem_cons.mp he with rfl | he
      · exact ha
      · exact hm e he
    · split at he
      · rcases List.mem_cons.mp he with rfl | he
        · exact ha
        · exact hm' e he
      · rcases List.mem_cons.mp he with rfl | he
        · exact hc
        · exact ih hm' e he

/-- A write keeps the canonical form. -/
theorem writeCell_wf {m : Memory} (a : Nat) (b : Byte) (h : Memory.wf m = true) :
    Memory.wf (writeCell m a b) = true := by
  induction m with
  | nil => rfl
  | cons c m ih =>
    obtain ⟨hc, hm⟩ := (Memory.wf_cons c m).mp h
    unfold writeCell
    split
    · rename_i ha
      refine (Memory.wf_cons _ _).mpr ⟨?_, h⟩
      intro e he
      rcases List.mem_cons.mp he with rfl | he
      · exact ha
      · exact lt_trans ha (hc e he)
    · split
      · rename_i e
        exact (Memory.wf_cons _ _).mpr ⟨by simpa [← e] using hc, hm⟩
      · exact (Memory.wf_cons _ _).mpr ⟨writeCell_above b hc (by omega), ih hm⟩

/-- So do consecutive writes. -/
theorem writeCells_wf {m : Memory} (a : Nat) (bs : List Byte) (h : Memory.wf m = true) :
    Memory.wf (writeCells m a bs) = true := by
  induction bs generalizing m a with
  | nil => exact h
  | cons b bs ih => exact ih (a + 1) (writeCell_wf a b h)

theorem mem_writeCell {m : Memory} {a : Nat} {b : Byte} {c : Host.Cell} (h : c ∈ writeCell m a b) :
    c = (a, b) ∨ c ∈ m := by
  induction m with
  | nil => exact .inl (by simpa [writeCell] using h)
  | cons d m ih =>
    unfold writeCell at h
    split at h
    · simpa using h
    · split at h
      · rcases List.mem_cons.mp h with h | h
        · exact .inl h
        · exact .inr (by simp [h])
      · rcases List.mem_cons.mp h with h | h
        · exact .inr (by simp [h])
        · rcases ih h with h | h
          · exact .inl h
          · exact .inr (by simp [h])

/-- Consecutive writes leave every index below and above them alone. -/
theorem readCell_writeCells_outside (m : Memory) (a x : Nat) (bs : List Byte) (h : x < a ∨ a + bs.length ≤ x) :
    readCell (writeCells m a bs) x = readCell m x := by
  induction bs generalizing m a with
  | nil => rfl
  | cons b bs ih =>
    simp only [List.length_cons] at h
    rw [writeCells, ih _ _ (by omega), readCell_writeCell_other _ _ (by omega)]

/-- Consecutive writes are read back. -/
theorem readCell_writeCells_inside (m : Memory) (a j : Nat) (bs : List Byte) (h : j < bs.length) :
    readCell (writeCells m a bs) (a + j) = bs[j]? := by
  induction bs generalizing m a j with
  | nil => simp at h
  | cons b bs ih =>
    cases j with
    | zero =>
      rw [writeCells, readCell_writeCells_outside _ _ _ _ (by omega)]
      simp
    | succ j =>
      have := ih (writeCell m a b) (a + 1) j (by simpa using h)
      rw [writeCells, show a + (j + 1) = a + 1 + j by omega, this]
      simp

end Sys2Proof.Machine
end

