-- ==== Sys2Proof/Laws/State.lean ====
section
/-! SUPPORT. One lemma per field per named update of State: what the update writes there, or that it writes nothing. -/

namespace Sys2Proof.Machine

variable (s : State)

/-! ### State.afterRead -/

@[simp] theorem State.afterRead_mode (a : InAnswer) (q : List InAnswer) : (s.afterRead a q).mode = s.mode := rfl
@[simp] theorem State.afterRead_status (a : InAnswer) (q : List InAnswer) : (s.afterRead a q).status = s.status := rfl
@[simp] theorem State.afterRead_errCause (a : InAnswer) (q : List InAnswer) : (s.afterRead a q).errCause = s.errCause := rfl
@[simp] theorem State.afterRead_errKind (a : InAnswer) (q : List InAnswer) : (s.afterRead a q).errKind = s.errKind := rfl
@[simp] theorem State.afterRead_ibuf (a : InAnswer) (q : List InAnswer) : (s.afterRead a q).ibuf = s.ibuf := rfl
@[simp] theorem State.afterRead_n (a : InAnswer) (q : List InAnswer) : (s.afterRead a q).n = s.n := rfl
@[simp] theorem State.afterRead_i (a : InAnswer) (q : List InAnswer) : (s.afterRead a q).i = s.i := rfl
@[simp] theorem State.afterRead_runLen (a : InAnswer) (q : List InAnswer) : (s.afterRead a q).runLen = s.runLen := rfl
@[simp] theorem State.afterRead_litStart (a : InAnswer) (q : List InAnswer) : (s.afterRead a q).litStart = s.litStart := rfl
@[simp] theorem State.afterRead_litLen (a : InAnswer) (q : List InAnswer) : (s.afterRead a q).litLen = s.litLen := rfl
@[simp] theorem State.afterRead_eState (a : InAnswer) (q : List InAnswer) : (s.afterRead a q).eState = s.eState := rfl
@[simp] theorem State.afterRead_txk (a : InAnswer) (q : List InAnswer) : (s.afterRead a q).txk = s.txk := rfl
@[simp] theorem State.afterRead_dState (a : InAnswer) (q : List InAnswer) : (s.afterRead a q).dState = s.dState := rfl
@[simp] theorem State.afterRead_dPhase (a : InAnswer) (q : List InAnswer) : (s.afterRead a q).dPhase = s.dPhase := rfl
@[simp] theorem State.afterRead_len (a : InAnswer) (q : List InAnswer) : (s.afterRead a q).len = s.len := rfl
@[simp] theorem State.afterRead_val (a : InAnswer) (q : List InAnswer) : (s.afterRead a q).val = s.val := rfl
@[simp] theorem State.afterRead_lbuf (a : InAnswer) (q : List InAnswer) : (s.afterRead a q).lbuf = s.lbuf := rfl
@[simp] theorem State.afterRead_k (a : InAnswer) (q : List InAnswer) : (s.afterRead a q).k = s.k := rfl
@[simp] theorem State.afterRead_events (a : InAnswer) (q : List InAnswer) : (s.afterRead a q).events = s.events ++ [.rd a] := rfl
@[simp] theorem State.afterRead_inQueue (a : InAnswer) (q : List InAnswer) : (s.afterRead a q).inQueue = q := rfl
@[simp] theorem State.afterRead_outQueue (a : InAnswer) (q : List InAnswer) : (s.afterRead a q).outQueue = s.outQueue := rfl
@[simp] theorem State.afterRead_outBuffer (a : InAnswer) (q : List InAnswer) : (s.afterRead a q).outBuffer = s.outBuffer := rfl
@[simp] theorem State.afterRead_sink (a : InAnswer) (q : List InAnswer) : (s.afterRead a q).sink = s.sink := rfl
@[simp] theorem State.afterRead_sinkLost (a : InAnswer) (q : List InAnswer) : (s.afterRead a q).sinkLost = s.sinkLost := rfl
@[simp] theorem State.afterRead_host (a : InAnswer) (q : List InAnswer) : (s.afterRead a q).host = s.host := rfl
@[simp] theorem State.afterRead_par (a : InAnswer) (q : List InAnswer) : (s.afterRead a q).par = s.par := rfl

/-! ### State.afterWrite -/

@[simp] theorem State.afterWrite_mode (b : Byte) (a : OutAnswer) (q : List OutAnswer) : (s.afterWrite b a q).mode = s.mode := rfl
@[simp] theorem State.afterWrite_status (b : Byte) (a : OutAnswer) (q : List OutAnswer) : (s.afterWrite b a q).status = s.status := rfl
@[simp] theorem State.afterWrite_errCause (b : Byte) (a : OutAnswer) (q : List OutAnswer) : (s.afterWrite b a q).errCause = s.errCause := rfl
@[simp] theorem State.afterWrite_errKind (b : Byte) (a : OutAnswer) (q : List OutAnswer) : (s.afterWrite b a q).errKind = s.errKind := rfl
@[simp] theorem State.afterWrite_ibuf (b : Byte) (a : OutAnswer) (q : List OutAnswer) : (s.afterWrite b a q).ibuf = s.ibuf := rfl
@[simp] theorem State.afterWrite_n (b : Byte) (a : OutAnswer) (q : List OutAnswer) : (s.afterWrite b a q).n = s.n := rfl
@[simp] theorem State.afterWrite_i (b : Byte) (a : OutAnswer) (q : List OutAnswer) : (s.afterWrite b a q).i = s.i := rfl
@[simp] theorem State.afterWrite_runLen (b : Byte) (a : OutAnswer) (q : List OutAnswer) : (s.afterWrite b a q).runLen = s.runLen := rfl
@[simp] theorem State.afterWrite_litStart (b : Byte) (a : OutAnswer) (q : List OutAnswer) : (s.afterWrite b a q).litStart = s.litStart := rfl
@[simp] theorem State.afterWrite_litLen (b : Byte) (a : OutAnswer) (q : List OutAnswer) : (s.afterWrite b a q).litLen = s.litLen := rfl
@[simp] theorem State.afterWrite_eState (b : Byte) (a : OutAnswer) (q : List OutAnswer) : (s.afterWrite b a q).eState = s.eState := rfl
@[simp] theorem State.afterWrite_txk (b : Byte) (a : OutAnswer) (q : List OutAnswer) : (s.afterWrite b a q).txk = s.txk := rfl
@[simp] theorem State.afterWrite_dState (b : Byte) (a : OutAnswer) (q : List OutAnswer) : (s.afterWrite b a q).dState = s.dState := rfl
@[simp] theorem State.afterWrite_dPhase (b : Byte) (a : OutAnswer) (q : List OutAnswer) : (s.afterWrite b a q).dPhase = s.dPhase := rfl
@[simp] theorem State.afterWrite_len (b : Byte) (a : OutAnswer) (q : List OutAnswer) : (s.afterWrite b a q).len = s.len := rfl
@[simp] theorem State.afterWrite_val (b : Byte) (a : OutAnswer) (q : List OutAnswer) : (s.afterWrite b a q).val = s.val := rfl
@[simp] theorem State.afterWrite_lbuf (b : Byte) (a : OutAnswer) (q : List OutAnswer) : (s.afterWrite b a q).lbuf = s.lbuf := rfl
@[simp] theorem State.afterWrite_k (b : Byte) (a : OutAnswer) (q : List OutAnswer) : (s.afterWrite b a q).k = s.k := rfl
@[simp] theorem State.afterWrite_events (b : Byte) (a : OutAnswer) (q : List OutAnswer) : (s.afterWrite b a q).events = s.events ++ [.wr b a] := rfl
@[simp] theorem State.afterWrite_inQueue (b : Byte) (a : OutAnswer) (q : List OutAnswer) : (s.afterWrite b a q).inQueue = s.inQueue := rfl
@[simp] theorem State.afterWrite_outQueue (b : Byte) (a : OutAnswer) (q : List OutAnswer) : (s.afterWrite b a q).outQueue = q := rfl
@[simp] theorem State.afterWrite_outBuffer (b : Byte) (a : OutAnswer) (q : List OutAnswer) : (s.afterWrite b a q).outBuffer = if a = .ok then s.outBuffer ++ [b] else s.outBuffer := rfl
@[simp] theorem State.afterWrite_sink (b : Byte) (a : OutAnswer) (q : List OutAnswer) : (s.afterWrite b a q).sink = s.sink := rfl
@[simp] theorem State.afterWrite_sinkLost (b : Byte) (a : OutAnswer) (q : List OutAnswer) : (s.afterWrite b a q).sinkLost = s.sinkLost := rfl
@[simp] theorem State.afterWrite_host (b : Byte) (a : OutAnswer) (q : List OutAnswer) : (s.afterWrite b a q).host = s.host := rfl
@[simp] theorem State.afterWrite_par (b : Byte) (a : OutAnswer) (q : List OutAnswer) : (s.afterWrite b a q).par = s.par := rfl

/-! ### State.afterFlush -/

@[simp] theorem State.afterFlush_mode (a : OutAnswer) (q : List OutAnswer) : (s.afterFlush a q).mode = s.mode := rfl
@[simp] theorem State.afterFlush_status (a : OutAnswer) (q : List OutAnswer) : (s.afterFlush a q).status = s.status := rfl
@[simp] theorem State.afterFlush_errCause (a : OutAnswer) (q : List OutAnswer) : (s.afterFlush a q).errCause = s.errCause := rfl
@[simp] theorem State.afterFlush_errKind (a : OutAnswer) (q : List OutAnswer) : (s.afterFlush a q).errKind = s.errKind := rfl
@[simp] theorem State.afterFlush_ibuf (a : OutAnswer) (q : List OutAnswer) : (s.afterFlush a q).ibuf = s.ibuf := rfl
@[simp] theorem State.afterFlush_n (a : OutAnswer) (q : List OutAnswer) : (s.afterFlush a q).n = s.n := rfl
@[simp] theorem State.afterFlush_i (a : OutAnswer) (q : List OutAnswer) : (s.afterFlush a q).i = s.i := rfl
@[simp] theorem State.afterFlush_runLen (a : OutAnswer) (q : List OutAnswer) : (s.afterFlush a q).runLen = s.runLen := rfl
@[simp] theorem State.afterFlush_litStart (a : OutAnswer) (q : List OutAnswer) : (s.afterFlush a q).litStart = s.litStart := rfl
@[simp] theorem State.afterFlush_litLen (a : OutAnswer) (q : List OutAnswer) : (s.afterFlush a q).litLen = s.litLen := rfl
@[simp] theorem State.afterFlush_eState (a : OutAnswer) (q : List OutAnswer) : (s.afterFlush a q).eState = s.eState := rfl
@[simp] theorem State.afterFlush_txk (a : OutAnswer) (q : List OutAnswer) : (s.afterFlush a q).txk = s.txk := rfl
@[simp] theorem State.afterFlush_dState (a : OutAnswer) (q : List OutAnswer) : (s.afterFlush a q).dState = s.dState := rfl
@[simp] theorem State.afterFlush_dPhase (a : OutAnswer) (q : List OutAnswer) : (s.afterFlush a q).dPhase = s.dPhase := rfl
@[simp] theorem State.afterFlush_len (a : OutAnswer) (q : List OutAnswer) : (s.afterFlush a q).len = s.len := rfl
@[simp] theorem State.afterFlush_val (a : OutAnswer) (q : List OutAnswer) : (s.afterFlush a q).val = s.val := rfl
@[simp] theorem State.afterFlush_lbuf (a : OutAnswer) (q : List OutAnswer) : (s.afterFlush a q).lbuf = s.lbuf := rfl
@[simp] theorem State.afterFlush_k (a : OutAnswer) (q : List OutAnswer) : (s.afterFlush a q).k = s.k := rfl
@[simp] theorem State.afterFlush_events (a : OutAnswer) (q : List OutAnswer) : (s.afterFlush a q).events = s.events ++ [.flush a] := rfl
@[simp] theorem State.afterFlush_inQueue (a : OutAnswer) (q : List OutAnswer) : (s.afterFlush a q).inQueue = s.inQueue := rfl
@[simp] theorem State.afterFlush_outQueue (a : OutAnswer) (q : List OutAnswer) : (s.afterFlush a q).outQueue = q := rfl
@[simp] theorem State.afterFlush_outBuffer (a : OutAnswer) (q : List OutAnswer) : (s.afterFlush a q).outBuffer = if a = .ok then [] else s.outBuffer := rfl
@[simp] theorem State.afterFlush_sink (a : OutAnswer) (q : List OutAnswer) : (s.afterFlush a q).sink = if a = .ok then s.sink ++ s.outBuffer else s.sink := rfl
@[simp] theorem State.afterFlush_sinkLost (a : OutAnswer) (q : List OutAnswer) : (s.afterFlush a q).sinkLost = s.sinkLost := rfl
@[simp] theorem State.afterFlush_host (a : OutAnswer) (q : List OutAnswer) : (s.afterFlush a q).host = s.host := rfl
@[simp] theorem State.afterFlush_par (a : OutAnswer) (q : List OutAnswer) : (s.afterFlush a q).par = s.par := rfl

/-! ### State.raise -/

@[simp] theorem State.raise_mode (c : ErrCause) (d : FailKind) : (s.raise c d).mode = s.mode := rfl
@[simp] theorem State.raise_status (c : ErrCause) (d : FailKind) : (s.raise c d).status = .fail := rfl
@[simp] theorem State.raise_errCause (c : ErrCause) (d : FailKind) : (s.raise c d).errCause = c := rfl
@[simp] theorem State.raise_errKind (c : ErrCause) (d : FailKind) : (s.raise c d).errKind = errKindOf c d := rfl
@[simp] theorem State.raise_ibuf (c : ErrCause) (d : FailKind) : (s.raise c d).ibuf = s.ibuf := rfl
@[simp] theorem State.raise_n (c : ErrCause) (d : FailKind) : (s.raise c d).n = s.n := rfl
@[simp] theorem State.raise_i (c : ErrCause) (d : FailKind) : (s.raise c d).i = s.i := rfl
@[simp] theorem State.raise_runLen (c : ErrCause) (d : FailKind) : (s.raise c d).runLen = s.runLen := rfl
@[simp] theorem State.raise_litStart (c : ErrCause) (d : FailKind) : (s.raise c d).litStart = s.litStart := rfl
@[simp] theorem State.raise_litLen (c : ErrCause) (d : FailKind) : (s.raise c d).litLen = s.litLen := rfl
@[simp] theorem State.raise_eState (c : ErrCause) (d : FailKind) : (s.raise c d).eState = s.eState := rfl
@[simp] theorem State.raise_txk (c : ErrCause) (d : FailKind) : (s.raise c d).txk = s.txk := rfl
@[simp] theorem State.raise_dState (c : ErrCause) (d : FailKind) : (s.raise c d).dState = s.dState := rfl
@[simp] theorem State.raise_dPhase (c : ErrCause) (d : FailKind) : (s.raise c d).dPhase = s.dPhase := rfl
@[simp] theorem State.raise_len (c : ErrCause) (d : FailKind) : (s.raise c d).len = s.len := rfl
@[simp] theorem State.raise_val (c : ErrCause) (d : FailKind) : (s.raise c d).val = s.val := rfl
@[simp] theorem State.raise_lbuf (c : ErrCause) (d : FailKind) : (s.raise c d).lbuf = s.lbuf := rfl
@[simp] theorem State.raise_k (c : ErrCause) (d : FailKind) : (s.raise c d).k = s.k := rfl
@[simp] theorem State.raise_events (c : ErrCause) (d : FailKind) : (s.raise c d).events = s.events := rfl
@[simp] theorem State.raise_inQueue (c : ErrCause) (d : FailKind) : (s.raise c d).inQueue = s.inQueue := rfl
@[simp] theorem State.raise_outQueue (c : ErrCause) (d : FailKind) : (s.raise c d).outQueue = s.outQueue := rfl
@[simp] theorem State.raise_outBuffer (c : ErrCause) (d : FailKind) : (s.raise c d).outBuffer = s.outBuffer := rfl
@[simp] theorem State.raise_sink (c : ErrCause) (d : FailKind) : (s.raise c d).sink = s.sink := rfl
@[simp] theorem State.raise_sinkLost (c : ErrCause) (d : FailKind) : (s.raise c d).sinkLost = true := rfl
@[simp] theorem State.raise_host (c : ErrCause) (d : FailKind) : (s.raise c d).host = s.host := rfl
@[simp] theorem State.raise_par (c : ErrCause) (d : FailKind) : (s.raise c d).par = s.par := rfl

/-! ### encStart -/

@[simp] theorem encStart_mode : (encStart s).mode = s.mode := rfl
@[simp] theorem encStart_status : (encStart s).status = s.status := rfl
@[simp] theorem encStart_errCause : (encStart s).errCause = s.errCause := rfl
@[simp] theorem encStart_errKind : (encStart s).errKind = s.errKind := rfl
@[simp] theorem encStart_ibuf : (encStart s).ibuf = s.ibuf := rfl
@[simp] theorem encStart_n : (encStart s).n = 0 := rfl
@[simp] theorem encStart_i : (encStart s).i = 0 := rfl
@[simp] theorem encStart_runLen : (encStart s).runLen = s.runLen := rfl
@[simp] theorem encStart_litStart : (encStart s).litStart = s.litStart := rfl
@[simp] theorem encStart_litLen : (encStart s).litLen = s.litLen := rfl
@[simp] theorem encStart_eState : (encStart s).eState = .load := rfl
@[simp] theorem encStart_txk : (encStart s).txk = s.txk := rfl
@[simp] theorem encStart_dState : (encStart s).dState = s.dState := rfl
@[simp] theorem encStart_dPhase : (encStart s).dPhase = s.dPhase := rfl
@[simp] theorem encStart_len : (encStart s).len = s.len := rfl
@[simp] theorem encStart_val : (encStart s).val = s.val := rfl
@[simp] theorem encStart_lbuf : (encStart s).lbuf = s.lbuf := rfl
@[simp] theorem encStart_k : (encStart s).k = s.k := rfl
@[simp] theorem encStart_events : (encStart s).events = s.events := rfl
@[simp] theorem encStart_inQueue : (encStart s).inQueue = s.inQueue := rfl
@[simp] theorem encStart_outQueue : (encStart s).outQueue = s.outQueue := rfl
@[simp] theorem encStart_outBuffer : (encStart s).outBuffer = s.outBuffer := rfl
@[simp] theorem encStart_sink : (encStart s).sink = s.sink := rfl
@[simp] theorem encStart_sinkLost : (encStart s).sinkLost = s.sinkLost := rfl
@[simp] theorem encStart_host : (encStart s).host = s.host := rfl
@[simp] theorem encStart_par : (encStart s).par = s.par := rfl

/-! ### decStart -/

@[simp] theorem decStart_mode : (decStart s).mode = s.mode := rfl
@[simp] theorem decStart_status : (decStart s).status = s.status := rfl
@[simp] theorem decStart_errCause : (decStart s).errCause = s.errCause := rfl
@[simp] theorem decStart_errKind : (decStart s).errKind = s.errKind := rfl
@[simp] theorem decStart_ibuf : (decStart s).ibuf = s.ibuf := rfl
@[simp] theorem decStart_n : (decStart s).n = s.n := rfl
@[simp] theorem decStart_i : (decStart s).i = s.i := rfl
@[simp] theorem decStart_runLen : (decStart s).runLen = s.runLen := rfl
@[simp] theorem decStart_litStart : (decStart s).litStart = s.litStart := rfl
@[simp] theorem decStart_litLen : (decStart s).litLen = s.litLen := rfl
@[simp] theorem decStart_eState : (decStart s).eState = s.eState := rfl
@[simp] theorem decStart_txk : (decStart s).txk = s.txk := rfl
@[simp] theorem decStart_dState : (decStart s).dState = .readingHeader := rfl
@[simp] theorem decStart_dPhase : (decStart s).dPhase = s.dPhase := rfl
@[simp] theorem decStart_len : (decStart s).len = s.len := rfl
@[simp] theorem decStart_val : (decStart s).val = s.val := rfl
@[simp] theorem decStart_lbuf : (decStart s).lbuf = s.lbuf := rfl
@[simp] theorem decStart_k : (decStart s).k = s.k := rfl
@[simp] theorem decStart_events : (decStart s).events = s.events := rfl
@[simp] theorem decStart_inQueue : (decStart s).inQueue = s.inQueue := rfl
@[simp] theorem decStart_outQueue : (decStart s).outQueue = s.outQueue := rfl
@[simp] theorem decStart_outBuffer : (decStart s).outBuffer = s.outBuffer := rfl
@[simp] theorem decStart_sink : (decStart s).sink = s.sink := rfl
@[simp] theorem decStart_sinkLost : (decStart s).sinkLost = s.sinkLost := rfl
@[simp] theorem decStart_host : (decStart s).host = s.host := rfl
@[simp] theorem decStart_par : (decStart s).par = s.par := rfl

/-! ### takeStart -/

@[simp] theorem takeStart_mode (m : Mode) : (takeStart m s).mode = m := rfl
@[simp] theorem takeStart_status (m : Mode) : (takeStart m s).status = .busy := rfl
@[simp] theorem takeStart_errCause (m : Mode) : (takeStart m s).errCause = .noCause := rfl
@[simp] theorem takeStart_errKind (m : Mode) : (takeStart m s).errKind = 0 := rfl
@[simp] theorem takeStart_ibuf (m : Mode) : (takeStart m s).ibuf = s.ibuf := rfl
@[simp] theorem takeStart_n (m : Mode) : (takeStart m s).n = s.n := rfl
@[simp] theorem takeStart_i (m : Mode) : (takeStart m s).i = s.i := rfl
@[simp] theorem takeStart_runLen (m : Mode) : (takeStart m s).runLen = s.runLen := rfl
@[simp] theorem takeStart_litStart (m : Mode) : (takeStart m s).litStart = s.litStart := rfl
@[simp] theorem takeStart_litLen (m : Mode) : (takeStart m s).litLen = s.litLen := rfl
@[simp] theorem takeStart_eState (m : Mode) : (takeStart m s).eState = s.eState := rfl
@[simp] theorem takeStart_txk (m : Mode) : (takeStart m s).txk = s.txk := rfl
@[simp] theorem takeStart_dState (m : Mode) : (takeStart m s).dState = s.dState := rfl
@[simp] theorem takeStart_dPhase (m : Mode) : (takeStart m s).dPhase = s.dPhase := rfl
@[simp] theorem takeStart_len (m : Mode) : (takeStart m s).len = s.len := rfl
@[simp] theorem takeStart_val (m : Mode) : (takeStart m s).val = s.val := rfl
@[simp] theorem takeStart_lbuf (m : Mode) : (takeStart m s).lbuf = s.lbuf := rfl
@[simp] theorem takeStart_k (m : Mode) : (takeStart m s).k = s.k := rfl
@[simp] theorem takeStart_events (m : Mode) : (takeStart m s).events = [] := rfl
@[simp] theorem takeStart_inQueue (m : Mode) : (takeStart m s).inQueue = s.inQueue := rfl
@[simp] theorem takeStart_outQueue (m : Mode) : (takeStart m s).outQueue = s.outQueue := rfl
@[simp] theorem takeStart_outBuffer (m : Mode) : (takeStart m s).outBuffer = s.outBuffer := rfl
@[simp] theorem takeStart_sink (m : Mode) : (takeStart m s).sink = s.sink := rfl
@[simp] theorem takeStart_sinkLost (m : Mode) : (takeStart m s).sinkLost = s.sinkLost := rfl
@[simp] theorem takeStart_host (m : Mode) : (takeStart m s).host = s.host := rfl
@[simp] theorem takeStart_par (m : Mode) : (takeStart m s).par = s.par := rfl

/-! ### closeLiteral -/

@[simp] theorem closeLiteral_mode : (closeLiteral s).mode = s.mode := rfl
@[simp] theorem closeLiteral_status : (closeLiteral s).status = s.status := rfl
@[simp] theorem closeLiteral_errCause : (closeLiteral s).errCause = s.errCause := rfl
@[simp] theorem closeLiteral_errKind : (closeLiteral s).errKind = s.errKind := rfl
@[simp] theorem closeLiteral_ibuf : (closeLiteral s).ibuf = s.ibuf := rfl
@[simp] theorem closeLiteral_n : (closeLiteral s).n = s.n := rfl
@[simp] theorem closeLiteral_i : (closeLiteral s).i = s.i := rfl
@[simp] theorem closeLiteral_runLen : (closeLiteral s).runLen = s.runLen := rfl
@[simp] theorem closeLiteral_litStart : (closeLiteral s).litStart = s.litStart := rfl
@[simp] theorem closeLiteral_litLen : (closeLiteral s).litLen = s.litLen := rfl
@[simp] theorem closeLiteral_eState : (closeLiteral s).eState = .txLit := rfl
@[simp] theorem closeLiteral_txk : (closeLiteral s).txk = 0 := rfl
@[simp] theorem closeLiteral_dState : (closeLiteral s).dState = s.dState := rfl
@[simp] theorem closeLiteral_dPhase : (closeLiteral s).dPhase = s.dPhase := rfl
@[simp] theorem closeLiteral_len : (closeLiteral s).len = s.len := rfl
@[simp] theorem closeLiteral_val : (closeLiteral s).val = s.val := rfl
@[simp] theorem closeLiteral_lbuf : (closeLiteral s).lbuf = s.lbuf := rfl
@[simp] theorem closeLiteral_k : (closeLiteral s).k = s.k := rfl
@[simp] theorem closeLiteral_events : (closeLiteral s).events = s.events := rfl
@[simp] theorem closeLiteral_inQueue : (closeLiteral s).inQueue = s.inQueue := rfl
@[simp] theorem closeLiteral_outQueue : (closeLiteral s).outQueue = s.outQueue := rfl
@[simp] theorem closeLiteral_outBuffer : (closeLiteral s).outBuffer = s.outBuffer := rfl
@[simp] theorem closeLiteral_sink : (closeLiteral s).sink = s.sink := rfl
@[simp] theorem closeLiteral_sinkLost : (closeLiteral s).sinkLost = s.sinkLost := rfl
@[simp] theorem closeLiteral_host : (closeLiteral s).host = s.host := rfl
@[simp] theorem closeLiteral_par : (closeLiteral s).par = s.par := rfl

/-! ### latchRun -/

@[simp] theorem latchRun_mode (c : Len) (v : Byte) : (latchRun c v s).mode = s.mode := rfl
@[simp] theorem latchRun_status (c : Len) (v : Byte) : (latchRun c v s).status = s.status := rfl
@[simp] theorem latchRun_errCause (c : Len) (v : Byte) : (latchRun c v s).errCause = s.errCause := rfl
@[simp] theorem latchRun_errKind (c : Len) (v : Byte) : (latchRun c v s).errKind = s.errKind := rfl
@[simp] theorem latchRun_ibuf (c : Len) (v : Byte) : (latchRun c v s).ibuf = s.ibuf := rfl
@[simp] theorem latchRun_n (c : Len) (v : Byte) : (latchRun c v s).n = s.n := rfl
@[simp] theorem latchRun_i (c : Len) (v : Byte) : (latchRun c v s).i = s.i := rfl
@[simp] theorem latchRun_runLen (c : Len) (v : Byte) : (latchRun c v s).runLen = s.runLen := rfl
@[simp] theorem latchRun_litStart (c : Len) (v : Byte) : (latchRun c v s).litStart = s.litStart := rfl
@[simp] theorem latchRun_litLen (c : Len) (v : Byte) : (latchRun c v s).litLen = s.litLen := rfl
@[simp] theorem latchRun_eState (c : Len) (v : Byte) : (latchRun c v s).eState = s.eState := rfl
@[simp] theorem latchRun_txk (c : Len) (v : Byte) : (latchRun c v s).txk = s.txk := rfl
@[simp] theorem latchRun_dState (c : Len) (v : Byte) : (latchRun c v s).dState = .emittingRun := rfl
@[simp] theorem latchRun_dPhase (c : Len) (v : Byte) : (latchRun c v s).dPhase = .drain := rfl
@[simp] theorem latchRun_len (c : Len) (v : Byte) : (latchRun c v s).len = c := rfl
@[simp] theorem latchRun_val (c : Len) (v : Byte) : (latchRun c v s).val = v := rfl
@[simp] theorem latchRun_lbuf (c : Len) (v : Byte) : (latchRun c v s).lbuf = s.lbuf := rfl
@[simp] theorem latchRun_k (c : Len) (v : Byte) : (latchRun c v s).k = 0 := rfl
@[simp] theorem latchRun_events (c : Len) (v : Byte) : (latchRun c v s).events = s.events := rfl
@[simp] theorem latchRun_inQueue (c : Len) (v : Byte) : (latchRun c v s).inQueue = s.inQueue := rfl
@[simp] theorem latchRun_outQueue (c : Len) (v : Byte) : (latchRun c v s).outQueue = s.outQueue := rfl
@[simp] theorem latchRun_outBuffer (c : Len) (v : Byte) : (latchRun c v s).outBuffer = s.outBuffer := rfl
@[simp] theorem latchRun_sink (c : Len) (v : Byte) : (latchRun c v s).sink = s.sink := rfl
@[simp] theorem latchRun_sinkLost (c : Len) (v : Byte) : (latchRun c v s).sinkLost = s.sinkLost := rfl
@[simp] theorem latchRun_host (c : Len) (v : Byte) : (latchRun c v s).host = s.host := rfl
@[simp] theorem latchRun_par (c : Len) (v : Byte) : (latchRun c v s).par = s.par := rfl

/-! ### latchLit -/

@[simp] theorem latchLit_mode (l : List Byte) : (latchLit l s).mode = s.mode := rfl
@[simp] theorem latchLit_status (l : List Byte) : (latchLit l s).status = s.status := rfl
@[simp] theorem latchLit_errCause (l : List Byte) : (latchLit l s).errCause = s.errCause := rfl
@[simp] theorem latchLit_errKind (l : List Byte) : (latchLit l s).errKind = s.errKind := rfl
@[simp] theorem latchLit_ibuf (l : List Byte) : (latchLit l s).ibuf = s.ibuf := rfl
@[simp] theorem latchLit_n (l : List Byte) : (latchLit l s).n = s.n := rfl
@[simp] theorem latchLit_i (l : List Byte) : (latchLit l s).i = s.i := rfl
@[simp] theorem latchLit_runLen (l : List Byte) : (latchLit l s).runLen = s.runLen := rfl
@[simp] theorem latchLit_litStart (l : List Byte) : (latchLit l s).litStart = s.litStart := rfl
@[simp] theorem latchLit_litLen (l : List Byte) : (latchLit l s).litLen = s.litLen := rfl
@[simp] theorem latchLit_eState (l : List Byte) : (latchLit l s).eState = s.eState := rfl
@[simp] theorem latchLit_txk (l : List Byte) : (latchLit l s).txk = s.txk := rfl
@[simp] theorem latchLit_dState (l : List Byte) : (latchLit l s).dState = .emittingLiteral := rfl
@[simp] theorem latchLit_dPhase (l : List Byte) : (latchLit l s).dPhase = .drain := rfl
@[simp] theorem latchLit_len (l : List Byte) : (latchLit l s).len = BitVec.ofNat 7 l.length := rfl
@[simp] theorem latchLit_val (l : List Byte) : (latchLit l s).val = s.val := rfl
@[simp] theorem latchLit_lbuf (l : List Byte) : (latchLit l s).lbuf = writeCells s.lbuf 0 l := rfl
@[simp] theorem latchLit_k (l : List Byte) : (latchLit l s).k = 0 := rfl
@[simp] theorem latchLit_events (l : List Byte) : (latchLit l s).events = s.events := rfl
@[simp] theorem latchLit_inQueue (l : List Byte) : (latchLit l s).inQueue = s.inQueue := rfl
@[simp] theorem latchLit_outQueue (l : List Byte) : (latchLit l s).outQueue = s.outQueue := rfl
@[simp] theorem latchLit_outBuffer (l : List Byte) : (latchLit l s).outBuffer = s.outBuffer := rfl
@[simp] theorem latchLit_sink (l : List Byte) : (latchLit l s).sink = s.sink := rfl
@[simp] theorem latchLit_sinkLost (l : List Byte) : (latchLit l s).sinkLost = s.sinkLost := rfl
@[simp] theorem latchLit_host (l : List Byte) : (latchLit l s).host = s.host := rfl
@[simp] theorem latchLit_par (l : List Byte) : (latchLit l s).par = s.par := rfl

/-! ### latchEnd -/

@[simp] theorem latchEnd_mode : (latchEnd s).mode = s.mode := rfl
@[simp] theorem latchEnd_status : (latchEnd s).status = s.status := rfl
@[simp] theorem latchEnd_errCause : (latchEnd s).errCause = s.errCause := rfl
@[simp] theorem latchEnd_errKind : (latchEnd s).errKind = s.errKind := rfl
@[simp] theorem latchEnd_ibuf : (latchEnd s).ibuf = s.ibuf := rfl
@[simp] theorem latchEnd_n : (latchEnd s).n = s.n := rfl
@[simp] theorem latchEnd_i : (latchEnd s).i = s.i := rfl
@[simp] theorem latchEnd_runLen : (latchEnd s).runLen = s.runLen := rfl
@[simp] theorem latchEnd_litStart : (latchEnd s).litStart = s.litStart := rfl
@[simp] theorem latchEnd_litLen : (latchEnd s).litLen = s.litLen := rfl
@[simp] theorem latchEnd_eState : (latchEnd s).eState = s.eState := rfl
@[simp] theorem latchEnd_txk : (latchEnd s).txk = s.txk := rfl
@[simp] theorem latchEnd_dState : (latchEnd s).dState = .done := rfl
@[simp] theorem latchEnd_dPhase : (latchEnd s).dPhase = s.dPhase := rfl
@[simp] theorem latchEnd_len : (latchEnd s).len = 0 := rfl
@[simp] theorem latchEnd_val : (latchEnd s).val = s.val := rfl
@[simp] theorem latchEnd_lbuf : (latchEnd s).lbuf = s.lbuf := rfl
@[simp] theorem latchEnd_k : (latchEnd s).k = s.k := rfl
@[simp] theorem latchEnd_events : (latchEnd s).events = s.events := rfl
@[simp] theorem latchEnd_inQueue : (latchEnd s).inQueue = s.inQueue := rfl
@[simp] theorem latchEnd_outQueue : (latchEnd s).outQueue = s.outQueue := rfl
@[simp] theorem latchEnd_outBuffer : (latchEnd s).outBuffer = s.outBuffer := rfl
@[simp] theorem latchEnd_sink : (latchEnd s).sink = s.sink := rfl
@[simp] theorem latchEnd_sinkLost : (latchEnd s).sinkLost = s.sinkLost := rfl
@[simp] theorem latchEnd_host : (latchEnd s).host = s.host := rfl
@[simp] theorem latchEnd_par : (latchEnd s).par = s.par := rfl

/-! ### drained -/

@[simp] theorem drained_mode : (drained s).mode = s.mode := by unfold drained; split <;> rfl
@[simp] theorem drained_status : (drained s).status = s.status := by unfold drained; split <;> rfl
@[simp] theorem drained_errCause : (drained s).errCause = s.errCause := by unfold drained; split <;> rfl
@[simp] theorem drained_errKind : (drained s).errKind = s.errKind := by unfold drained; split <;> rfl
@[simp] theorem drained_ibuf : (drained s).ibuf = s.ibuf := by unfold drained; split <;> rfl
@[simp] theorem drained_n : (drained s).n = s.n := by unfold drained; split <;> rfl
@[simp] theorem drained_i : (drained s).i = s.i := by unfold drained; split <;> rfl
@[simp] theorem drained_runLen : (drained s).runLen = s.runLen := by unfold drained; split <;> rfl
@[simp] theorem drained_litStart : (drained s).litStart = s.litStart := by unfold drained; split <;> rfl
@[simp] theorem drained_litLen : (drained s).litLen = s.litLen := by unfold drained; split <;> rfl
@[simp] theorem drained_eState : (drained s).eState = s.eState := by unfold drained; split <;> rfl
@[simp] theorem drained_txk : (drained s).txk = s.txk := by unfold drained; split <;> rfl
@[simp] theorem drained_dState : (drained s).dState = if s.k + 1 = s.len then .readingHeader else s.dState := by unfold drained; split <;> rfl
@[simp] theorem drained_dPhase : (drained s).dPhase = s.dPhase := by unfold drained; split <;> rfl
@[simp] theorem drained_len : (drained s).len = s.len := by unfold drained; split <;> rfl
@[simp] theorem drained_val : (drained s).val = s.val := by unfold drained; split <;> rfl
@[simp] theorem drained_lbuf : (drained s).lbuf = s.lbuf := by unfold drained; split <;> rfl
@[simp] theorem drained_k : (drained s).k = s.k + 1 := by unfold drained; split <;> rfl
@[simp] theorem drained_events : (drained s).events = s.events := by unfold drained; split <;> rfl
@[simp] theorem drained_inQueue : (drained s).inQueue = s.inQueue := by unfold drained; split <;> rfl
@[simp] theorem drained_outQueue : (drained s).outQueue = s.outQueue := by unfold drained; split <;> rfl
@[simp] theorem drained_outBuffer : (drained s).outBuffer = s.outBuffer := by unfold drained; split <;> rfl
@[simp] theorem drained_sink : (drained s).sink = s.sink := by unfold drained; split <;> rfl
@[simp] theorem drained_sinkLost : (drained s).sinkLost = s.sinkLost := by unfold drained; split <;> rfl
@[simp] theorem drained_host : (drained s).host = s.host := by unfold drained; split <;> rfl
@[simp] theorem drained_par : (drained s).par = s.par := by unfold drained; split <;> rfl

/-! ### deliver -/

@[simp] theorem deliver_mode (p : HostInput) : (deliver p s).mode = s.mode := by unfold deliver; split <;> rfl
@[simp] theorem deliver_status (p : HostInput) : (deliver p s).status = s.status := by unfold deliver; split <;> rfl
@[simp] theorem deliver_errCause (p : HostInput) : (deliver p s).errCause = s.errCause := by unfold deliver; split <;> rfl
@[simp] theorem deliver_errKind (p : HostInput) : (deliver p s).errKind = s.errKind := by unfold deliver; split <;> rfl
@[simp] theorem deliver_ibuf (p : HostInput) : (deliver p s).ibuf = s.ibuf := by unfold deliver; split <;> rfl
@[simp] theorem deliver_n (p : HostInput) : (deliver p s).n = s.n := by unfold deliver; split <;> rfl
@[simp] theorem deliver_i (p : HostInput) : (deliver p s).i = s.i := by unfold deliver; split <;> rfl
@[simp] theorem deliver_runLen (p : HostInput) : (deliver p s).runLen = s.runLen := by unfold deliver; split <;> rfl
@[simp] theorem deliver_litStart (p : HostInput) : (deliver p s).litStart = s.litStart := by unfold deliver; split <;> rfl
@[simp] theorem deliver_litLen (p : HostInput) : (deliver p s).litLen = s.litLen := by unfold deliver; split <;> rfl
@[simp] theorem deliver_eState (p : HostInput) : (deliver p s).eState = s.eState := by unfold deliver; split <;> rfl
@[simp] theorem deliver_txk (p : HostInput) : (deliver p s).txk = s.txk := by unfold deliver; split <;> rfl
@[simp] theorem deliver_dState (p : HostInput) : (deliver p s).dState = s.dState := by unfold deliver; split <;> rfl
@[simp] theorem deliver_dPhase (p : HostInput) : (deliver p s).dPhase = s.dPhase := by unfold deliver; split <;> rfl
@[simp] theorem deliver_len (p : HostInput) : (deliver p s).len = s.len := by unfold deliver; split <;> rfl
@[simp] theorem deliver_val (p : HostInput) : (deliver p s).val = s.val := by unfold deliver; split <;> rfl
@[simp] theorem deliver_lbuf (p : HostInput) : (deliver p s).lbuf = s.lbuf := by unfold deliver; split <;> rfl
@[simp] theorem deliver_k (p : HostInput) : (deliver p s).k = s.k := by unfold deliver; split <;> rfl
@[simp] theorem deliver_events (p : HostInput) : (deliver p s).events = s.events := by unfold deliver; split <;> rfl
theorem deliver_inQueue (p : HostInput) : (deliver p s).inQueue = if p.fresh then p.inBeats else s.inQueue ++ p.inBeats := by
  unfold deliver; split <;> rfl
theorem deliver_outQueue (p : HostInput) : (deliver p s).outQueue = if p.fresh then p.outBeats else s.outQueue ++ p.outBeats := by
  unfold deliver; split <;> rfl
theorem deliver_outBuffer (p : HostInput) : (deliver p s).outBuffer = if p.fresh then [] else s.outBuffer := by
  unfold deliver; split <;> rfl
theorem deliver_sink (p : HostInput) : (deliver p s).sink = if p.fresh then [] else s.sink := by
  unfold deliver; split <;> rfl
theorem deliver_sinkLost (p : HostInput) : (deliver p s).sinkLost = if p.fresh then false else s.sinkLost := by
  unfold deliver; split <;> rfl
@[simp] theorem deliver_host (p : HostInput) : (deliver p s).host = s.host := by unfold deliver; split <;> rfl
@[simp] theorem deliver_par (p : HostInput) : (deliver p s).par = s.par := by unfold deliver; split <;> rfl

/-! ### resetCore -/

@[simp] theorem resetCore_mode : (resetCore s).mode = .encode := rfl
@[simp] theorem resetCore_status : (resetCore s).status = .idle := rfl
@[simp] theorem resetCore_errCause : (resetCore s).errCause = .noCause := rfl
@[simp] theorem resetCore_errKind : (resetCore s).errKind = 0 := rfl
@[simp] theorem resetCore_ibuf : (resetCore s).ibuf = [] := rfl
@[simp] theorem resetCore_n : (resetCore s).n = 0 := rfl
@[simp] theorem resetCore_i : (resetCore s).i = 0 := rfl
@[simp] theorem resetCore_runLen : (resetCore s).runLen = 0 := rfl
@[simp] theorem resetCore_litStart : (resetCore s).litStart = 0 := rfl
@[simp] theorem resetCore_litLen : (resetCore s).litLen = 0 := rfl
@[simp] theorem resetCore_eState : (resetCore s).eState = .halt := rfl
@[simp] theorem resetCore_txk : (resetCore s).txk = 0 := rfl
@[simp] theorem resetCore_dState : (resetCore s).dState = .readingHeader := rfl
@[simp] theorem resetCore_dPhase : (resetCore s).dPhase = .fill := rfl
@[simp] theorem resetCore_len : (resetCore s).len = 0 := rfl
@[simp] theorem resetCore_val : (resetCore s).val = 0 := rfl
@[simp] theorem resetCore_lbuf : (resetCore s).lbuf = [] := rfl
@[simp] theorem resetCore_k : (resetCore s).k = 0 := rfl
@[simp] theorem resetCore_events : (resetCore s).events = s.events := rfl
@[simp] theorem resetCore_inQueue : (resetCore s).inQueue = s.inQueue := rfl
@[simp] theorem resetCore_outQueue : (resetCore s).outQueue = s.outQueue := rfl
@[simp] theorem resetCore_outBuffer : (resetCore s).outBuffer = s.outBuffer := rfl
@[simp] theorem resetCore_sink : (resetCore s).sink = s.sink := rfl
@[simp] theorem resetCore_sinkLost : (resetCore s).sinkLost = s.sinkLost := rfl
@[simp] theorem resetCore_host : (resetCore s).host = s.host := rfl
@[simp] theorem resetCore_par : (resetCore s).par = s.par := rfl

end Sys2Proof.Machine
end

