-- ==== Sys2Proof/Laws/Ops.lean ====
section
/-! SUPPORT. What each shared operation can do, said once. -/

namespace Sys2Proof.Machine

/-! ## Primitives -/

/-- A read answers a next state only by waiting, or through the rest of the step on the first answer queued. -/
theorem inRead_next {s t : State} {rest : InAnswer → State → Res} (h : inRead s rest = .next t) :
    (s.inQueue = [] ∧ t = s) ∨ ∃ a q, s.inQueue = a :: q ∧ rest a (s.afterRead a q) = .next t := by
  unfold inRead at h
  split at h
  · exact .inl ⟨‹_›, by injection h with h; exact h.symm⟩
  · exact .inr ⟨_, _, ‹_›, h⟩

theorem inRead_cons {s : State} {a : InAnswer} {q : List InAnswer} (rest : InAnswer → State → Res)
    (h : s.inQueue = a :: q) : inRead s rest = rest a (s.afterRead a q) := by
  simp [inRead, h]

theorem inRead_waits {s : State} (rest : InAnswer → State → Res) (h : s.inQueue = []) :
    inRead s rest = .next s := by
  simp [inRead, h]

/-- A write answers a next state only by waiting, or through the rest of the step on the first answer queued. -/
theorem outWrite_next {s t : State} {b : Byte} {rest : OutAnswer → State → Res}
    (h : outWrite b s rest = .next t) :
    (s.outQueue = [] ∧ t = s) ∨ ∃ a q, s.outQueue = a :: q ∧ rest a (s.afterWrite b a q) = .next t := by
  unfold outWrite at h
  split at h
  · exact .inl ⟨‹_›, by injection h with h; exact h.symm⟩
  · exact .inr ⟨_, _, ‹_›, h⟩

/-- A flush answers a next state only by waiting, or through the rest of the step on the first answer queued. -/
theorem outFlush_next {s t : State} {rest : OutAnswer → State → Res} (h : outFlush s rest = .next t) :
    (s.outQueue = [] ∧ t = s) ∨ ∃ a q, s.outQueue = a :: q ∧ rest a (s.afterFlush a q) = .next t := by
  unfold outFlush at h
  split at h
  · exact .inl ⟨‹_›, by injection h with h; exact h.symm⟩
  · exact .inr ⟨_, _, ‹_›, h⟩

/-- Everything a write of the core can do: wait, go on after `Ok`, or raise WR_FAIL (R148). -/
theorem writeThen_next {s t : State} {b : Byte} {done : State → Res} (h : writeThen b s done = .next t) :
    (s.outQueue = [] ∧ t = s) ∨
    (∃ q, s.outQueue = .ok :: q ∧ done (s.afterWrite b .ok q) = .next t) ∨
    (∃ k q, s.outQueue = .fail k :: q ∧ t = (s.afterWrite b (.fail k) q).raise .wrFail (.io k)) := by
  rcases outWrite_next h with h | ⟨a, q, hq, h⟩
  · exact .inl h
  · cases a with
    | ok => exact .inr (.inl ⟨q, hq, h⟩)
    | fail k =>
      injection h with h
      exact .inr (.inr ⟨k, q, hq, h.symm⟩)

theorem writeThen_ok {s : State} {q : List OutAnswer} (b : Byte) (done : State → Res)
    (h : s.outQueue = .ok :: q) : writeThen b s done = done (s.afterWrite b .ok q) := by
  simp [writeThen, outWrite, h]

theorem writeThen_fail {s : State} {k : IoErrorKind} {q : List OutAnswer} (b : Byte) (done : State → Res)
    (h : s.outQueue = .fail k :: q) :
    writeThen b s done = .next ((s.afterWrite b (.fail k) q).raise .wrFail (.io k)) := by
  simp [writeThen, outWrite, h]

theorem writeThen_waits {s : State} (b : Byte) (done : State → Res) (h : s.outQueue = []) :
    writeThen b s done = .next s := by
  simp [writeThen, outWrite, h]

/-- Everything a read of the decoder can do: wait, go on with the byte, or raise (R147, R150 to R152). -/
theorem readThen_next {s t : State} {c : ErrCause} {found : Byte → State → Res}
    (h : readThen c s found = .next t) :
    (s.inQueue = [] ∧ t = s) ∨
    (∃ b q, s.inQueue = .byte b :: q ∧ found b (s.afterRead (.byte b) q) = .next t) ∨
    (∃ q, s.inQueue = .eos :: q ∧ t = (s.afterRead .eos q).raise c .unexpectedEof) ∨
    (∃ k q, s.inQueue = .fail k :: q ∧ t = (s.afterRead (.fail k) q).raise .rdFail (.io k)) := by
  rcases inRead_next h with h | ⟨a, q, hq, h⟩
  · exact .inl h
  · cases a with
    | byte b => exact .inr (.inl ⟨b, q, hq, h⟩)
    | eos =>
      injection h with h
      exact .inr (.inr (.inl ⟨q, hq, h.symm⟩))
    | fail k =>
      injection h with h
      exact .inr (.inr (.inr ⟨k, q, hq, h.symm⟩))

/-- Everything the flush can do: wait, go on after `Ok`, or raise FL_FAIL (R149). -/
theorem flushThen_next {s t : State} {done : State → Res} (h : flushThen s done = .next t) :
    (s.outQueue = [] ∧ t = s) ∨
    (∃ q, s.outQueue = .ok :: q ∧ done (s.afterFlush .ok q) = .next t) ∨
    (∃ k q, s.outQueue = .fail k :: q ∧ t = (s.afterFlush (.fail k) q).raise .flFail (.io k)) := by
  rcases outFlush_next h with h | ⟨a, q, hq, h⟩
  · exact .inl h
  · cases a with
    | ok => exact .inr (.inl ⟨q, hq, h⟩)
    | fail k =>
      injection h with h
      exact .inr (.inr ⟨k, q, hq, h.symm⟩)

/-! ## Buffers -/

theorem readIbuf_next {s t : State} {a : Nat} {use : Byte → Res} (h : readIbuf s a use = .next t) :
    ∃ b, readCell s.ibuf a = some b ∧ use b = .next t := by
  unfold readIbuf at h
  split at h
  · exact ⟨_, ‹_›, h⟩
  · cases h

theorem readLbuf_next {s t : State} {a : Nat} {use : Byte → Res} (h : readLbuf s a use = .next t) :
    ∃ b, readCell s.lbuf a = some b ∧ use b = .next t := by
  unfold readLbuf at h
  split at h
  · exact ⟨_, ‹_›, h⟩
  · cases h

theorem writeIbuf_next {s t : State} {a : Nat} {b : Byte} {rest : State → Res}
    (h : writeIbuf s a b rest = .next t) :
    ibufHas s.par a = true ∧ rest { s with ibuf := writeCell s.ibuf a b } = .next t := by
  unfold writeIbuf at h
  split at h
  · exact ⟨‹_›, h⟩
  · cases h

theorem writeLbuf_next {s t : State} {a : Nat} {b : Byte} {rest : State → Res}
    (h : writeLbuf s a b rest = .next t) :
    a < Config.lbufSize ∧ rest { s with lbuf := writeCell s.lbuf a b } = .next t := by
  unfold writeLbuf at h
  split at h
  · exact ⟨‹_›, h⟩
  · cases h

/-! ## Repetition -/

/-- A property every step keeps holds after repetition. -/
theorem runWhile_keeps {P : State → Prop} {go : State → Bool} {tick : State → Res}
    (keep : ∀ s t, go s = true → P s → tick s = .next t → P t) :
    ∀ (fuel : Nat) (s t : State), P s → runWhile go tick fuel s = .next t → P t := by
  intro fuel
  induction fuel with
  | zero =>
    intro s t hs h
    injection h with h
    exact h ▸ hs
  | succ f ih =>
    intro s t hs h
    unfold runWhile at h
    split at h
    · rename_i hg
      cases ht : tick s with
      | next u =>
        rw [ht] at h
        exact ih u t (keep s u hg hs ht) h
      | fault r => simp [ht] at h
      | refused r => simp [ht] at h
    · injection h with h
      exact h ▸ hs

/-- A repetition whose first step must not be taken does nothing. -/
theorem runWhile_stopped {go : State → Bool} (tick : State → Res) {s : State} (fuel : Nat) (h : go s = false) :
    runWhile go tick fuel s = .next s := by
  cases fuel <;> simp [runWhile, h]

/-- A repetition of a step that waits does nothing. -/
theorem runWhile_waits {go : State → Bool} {tick : State → Res} {s : State} (h : tick s = .next s) :
    ∀ fuel, runWhile go tick fuel s = .next s := by
  intro fuel
  induction fuel with
  | zero => rfl
  | succ f ih => simp [runWhile, h, ih]

theorem runWhile_succ {go : State → Bool} {tick : State → Res} {s u : State} (fuel : Nat)
    (hg : go s = true) (h : tick s = .next u) : runWhile go tick (fuel + 1) s = runWhile go tick fuel u := by
  simp [runWhile, hg, h]

/-! ## The control block -/

/-- With nothing presented, `deliver` changes nothing. -/
@[simp] theorem deliver_low (s : State) : deliver HostInput.low s = s := by
  simp [deliver, HostInput.low]

/-- With nothing presented, a running invocation goes on. -/
theorem hostTurn_quiet_busy {s : State} (hq : s.host = []) (hb : s.status = .busy) :
    hostTurn s = .running s := by
  have h : s.busy = true := by simp [State.busy, hb]
  simp only [hostTurn, hq, controlTurn, deliver_low]
  simp [h, HostInput.low]

/-- With nothing presented, nothing happens outside an invocation. -/
theorem hostTurn_quiet_rest {s : State} (hq : s.host = []) (hb : s.status ≠ .busy) :
    hostTurn s = .settled s := by
  have h : s.busy = false := by simp [State.busy, hb]
  simp only [hostTurn, hq, controlTurn, deliver_low]
  simp [h, HostInput.low]

/-! ## Observations -/

theorem readTrace_afterRead_byte (s : State) (b : Byte) (q : List InAnswer) :
    (s.afterRead (.byte b) q).readTrace = s.readTrace ++ [b] := by
  simp [State.readTrace, Event.readByte?]

theorem writeTrace_afterRead (s : State) (a : InAnswer) (q : List InAnswer) :
    (s.afterRead a q).writeTrace = s.writeTrace := by
  simp [State.writeTrace, Event.wroteByte?]

theorem writeTrace_afterWrite_ok (s : State) (b : Byte) (q : List OutAnswer) :
    (s.afterWrite b .ok q).writeTrace = s.writeTrace ++ [b] := by
  simp [State.writeTrace, Event.wroteByte?]

theorem writeTrace_afterWrite_fail (s : State) (b : Byte) (k : IoErrorKind) (q : List OutAnswer) :
    (s.afterWrite b (.fail k) q).writeTrace = s.writeTrace := by
  simp [State.writeTrace, Event.wroteByte?]

@[simp] theorem writeTrace_raise (s : State) (c : ErrCause) (d : FailKind) :
    (s.raise c d).writeTrace = s.writeTrace := rfl

@[simp] theorem readTrace_raise (s : State) (c : ErrCause) (d : FailKind) :
    (s.raise c d).readTrace = s.readTrace := rfl

end Sys2Proof.Machine
end

