-- ==== Sys2Proof/Laws/PerInstr.lean ====
section
/-! SUPPORT. Statements for all instructions, made per instruction. The family CodeLength (30_encoding.md R63, R81): how
many bytes of the framed stream an instruction's code takes. -/

namespace Sys2Proof.Laws.CodeLength

/-- The code of an instruction has the length its format gives it (R63); a command of the mode flag has no bytes. -/
def Statement (i : Instr) : Prop := (recordBytes i).length = recordLength i

theorem endRec (flag : Bool) : Statement (.endRec flag) := rfl

theorem run (count : Len) (value : Byte) : Statement (.run count value) := rfl

theorem lit (body : List Byte) : Statement (.lit body) := Nat.add_comm body.length 1

theorem encode : Statement .encode := rfl

theorem decode : Statement .decode := rfl

end Sys2Proof.Laws.CodeLength
end

