-- ==== Sys2Proof/Tests/Slice0.lean ====
section
/-! SUPPORT. Tests: the checks of WellFormed, words of every format, one step per operation with the values of
95_test_vectors.md, and a witness for every statement that has hypotheses. -/

namespace Sys2Proof.Tests

open Sys2Proof.Machine

/-! ## WellFormed: an ill-formed term for each check -/

theorem test_wf_run_count_zero : (Instr.run 0 0x41#8).wellFormed = false := by decide
theorem test_wf_lit_empty : (Instr.lit []).wellFormed = false := by decide
theorem test_wf_lit_128 : (Instr.lit (List.replicate 128 0x41#8)).wellFormed = false := by decide +kernel
theorem test_wf_lit_127 : (Instr.lit (List.replicate 127 0x41#8)).wellFormed = true := by decide +kernel

/-! ## Decoding words written out from 30_encoding.md -/

/-- R67: bit 7 = 0, bits 6:0 = 0000011, then the value. -/
theorem test_decode_run : decode (.record [0b00000011#8, 0x41#8]) = .ok (.run 3 0x41#8, []) := by rfl
/-- R68: bit 7 = 1, bits 6:0 = 0000010, then two bytes; what follows is left over. -/
theorem test_decode_lit : decode (.record [0b10000010#8, 0x80#8, 0x00#8, 0x00#8]) =
    .ok (.lit [0x80#8, 0x00#8], [0x00#8]) := by rfl
/-- R69, R76: bits 6:0 = 0, either flag. -/
theorem test_decode_end : decode (.record [0b00000000#8]) = .ok (.endRec false, []) := by rfl
theorem test_decode_end_alias : decode (.record [0b10000000#8]) = .ok (.endRec true, []) := by rfl
/-- R81: the mode flag. -/
theorem test_decode_encode : decode (.command false) = .ok (.encode, []) := by rfl
theorem test_decode_decode : decode (.command true) = .ok (.decode, []) := by rfl
/-- R75: counts 1 and 2 are runs. -/
theorem test_decode_run_one : decode (.record [0x01#8, 0x41#8]) = .ok (.run 1 0x41#8, []) := by rfl
/-- H7, H11: the longest of each kind. -/
theorem test_header_7F : classify 0x7F#8 = .run ∧ hdrLen 0x7F#8 = 127 := by decide
theorem test_header_FF : classify 0xFF#8 = .literal ∧ hdrLen 0xFF#8 = 127 := by decide
/-- D3, D5, D18: the three ways to end too soon. -/
theorem test_decode_nothing : decode (.record []) = .error .noHeader := by rfl
theorem test_decode_no_value : decode (.record [0x03#8]) = .error .noValue := by rfl
theorem test_decode_short : decode (.record [0x83#8, 0x61#8, 0x62#8]) = .error .shortBody := by rfl
/-- Table words: bit 0 of the first byte is bit 0. -/
theorem test_table_run : decodeTableWord 16 0x4103 = some (.run 3 0x41#8) := by decide
theorem test_table_end : decodeTableWord 8 0x80 = some (.endRec true) := by decide
theorem test_table_lit : decodeTableWord 8 0x82 = some (.lit [0x00#8, 0x00#8]) := by decide
theorem test_table_encode : decodeTableWord 1 0 = some .encode := by decide
theorem test_table_decode : decodeTableWord 1 1 = some .decode := by decide
/-- R82, R84: program P4's text. -/
theorem test_assemble : assemble [.run 1 0x41#8, .run 2 0x42#8, .finL, .byte [0xFF#8, 0xFF#8]] =
    [0x01#8, 0x41#8, 0x02#8, 0x42#8, 0x80#8, 0xFF#8, 0xFF#8] := by decide

/-! ## Small states -/

/-- A running decode invocation at a header. -/
def decAt (q : List InAnswer) (o : List OutAnswer) : State :=
  { State.reset with mode := .decode, status := .busy, inQueue := q, outQueue := o }

/-- A running encode invocation with its input loaded. -/
def encAt (e : EState) (input : List Byte) (o : List OutAnswer) : State :=
  { State.reset with
    status := .busy, eState := e, ibuf := writeCells [] 0 input, n := input.length, outQueue := o }

/-- A state before `start`, with a sample of the pins to come. -/
def pinned (s : State) (p : HostInput) : State := { s with host := [p] }

/-- What a test looks at in the next state of an outcome. -/
def sees {α : Type} (r : Res) (f : State → α) : Option α := (nextState? r).map f

/-! ## One step each, expected values from 95_test_vectors.md -/

/-- M2, M3, M5. -/
theorem test_run_cap : (measureRun (encAt .scan [0x61#8, 0x61#8, 0x61#8, 0x62#8] []) 0 3).toOption = some 3 := by decide
theorem test_run_differs : (measureRun (encAt .scan [0x61#8, 0x61#8, 0x61#8, 0x62#8] []) 1 127).toOption = some 2 := by decide
theorem test_run_end : (measureRun (encAt .scan [0x61#8, 0x61#8, 0x61#8, 0x62#8] []) 3 127).toOption = some 1 := by decide

/-- P7 step 1: rd=41, IBUF[0] = 41, N = 1. -/
theorem test_load : sees (encTick { encAt .load [] [] with inQueue := [.byte 0x41#8] }) (fun s => (s.ibuf, s.n, s.rpos)) =
    some ([(0, 0x41#8)], 1, 1) := by decide
/-- X2: a failing read. -/
theorem test_load_fail : sees (encTick { encAt .load [0x41#8] [] with inQueue := [.fail 9] })
    (fun s => (s.status, s.errCause, s.errKind, s.n)) = some (.fail, .rdFail, 9, 1) := by decide
/-- P7 step 5: RUNLEN = 3 takes the run branch; P1 step 7: a pair takes the literal branch. -/
theorem test_scan_run : sees (encTick (encAt .scan [0x41#8, 0x41#8, 0x41#8] [])) (fun s => (s.runLen, s.eState)) =
    some (3, .txRun) := by decide
theorem test_scan_literal : sees (encTick (encAt .scan [0x61#8, 0x61#8, 0x62#8, 0x62#8, 0x62#8] []))
    (fun s => (s.litStart, s.litLen, s.eState)) = some (0, 0, .litAcc) := by decide
/-- P1 steps 8 and 10. -/
theorem test_litacc_takes : sees (encTick (encAt .litAcc [0x61#8, 0x61#8, 0x62#8, 0x62#8, 0x62#8] []))
    (fun s => (s.litLen, s.i, s.eState)) = some (1, 1, .litAcc) := by decide
theorem test_litacc_stops : sees (encTick { encAt .litAcc [0x61#8, 0x61#8, 0x62#8, 0x62#8, 0x62#8] [] with i := 2, litLen := 2 })
    (fun s => (s.litLen, s.i, s.eState)) = some (2, 2, .txLit) := by decide
/-- E20, D9: at 126 bytes with a pair next, SPLIT takes one byte, DEFER none, CHUNK two. -/
theorem test_litfill_at_126 :
    literalTakes .split 126 2 = 1 ∧ literalTakes .defer 126 2 = 0 ∧ literalTakes .chunk 126 2 = 2 := by decide
/-- P7 steps 6 and 7: the header, then a value byte that fails. -/
theorem test_txrun_header : sees (encTick { encAt .txRun [0x41#8, 0x41#8, 0x41#8] [.ok] with runLen := 3 })
    (fun s => (s.writeTrace, s.txk, s.i)) = some ([0x03#8], 1, 0) := by decide
theorem test_txrun_value_fails : sees (encTick { encAt .txRun [0x41#8, 0x41#8, 0x41#8] [.fail 9] with runLen := 3, txk := 1 })
    (fun s => (s.status, s.errCause, s.errKind, s.eState, s.i)) = some (.fail, .wrFail, 9, .txRun, 0) := by decide
/-- P1 steps 11 and 13. -/
theorem test_txlit_header : sees (encTick { encAt .txLit [0x61#8, 0x61#8] [.ok] with litLen := 2, i := 2 })
    (fun s => (s.writeTrace, s.txk)) = some ([0x82#8], 1) := by decide
theorem test_txlit_last : sees (encTick { encAt .txLit [0x61#8, 0x62#8] [.ok] with litLen := 2, i := 2, txk := 2 })
    (fun s => (s.writeTrace, s.txk, s.eState)) = some ([0x62#8], 2, .scan) := by decide
/-- P1 steps 18 and 19; X3. -/
theorem test_txend : sees (encTick (encAt .txEnd [] [.ok])) (fun s => (s.writeTrace, s.eState)) =
    some ([0x00#8], .flush) := by decide
theorem test_flush_fail : sees (encTick (encAt .flush [] [.fail 9])) (fun s => (s.status, s.errCause, s.errKind, s.eState)) =
    some (.fail, .flFail, 9, .flush) := by decide

/-- P2 step 2 and X4: RUN's phases. -/
theorem test_run_fill : sees (decTick { decAt [.byte 0x61#8] [] with dState := .emittingRun, len := 3 })
    (fun s => (s.val, s.k, s.dPhase)) = some (0x61#8, 0, .drain) := by decide
/-- D6 step 4: EOF_LIT with K = 2. -/
theorem test_lit_fill_eos : sees (decTick { decAt [.eos] [] with dState := .emittingLiteral, len := 5, k := 2 })
    (fun s => (s.status, s.errCause, s.errKind, s.k)) = some (.fail, .eofLit, 0, 2) := by decide
/-- H10 and H2 through the header fetch. -/
theorem test_fetch_85 : sees (decTick (decAt [.byte 0x85#8] [])) (fun s => (s.len, s.dState, s.dPhase)) =
    some (5, .emittingLiteral, .fill) := by decide
theorem test_fetch_80 : sees (decTick (decAt [.byte 0x80#8] [])) (fun s => (s.len, s.dState)) = some (0, .done) := by decide

/-- RUN: D7's count of 1, and X4's failure after one copy of three. -/
theorem test_exec_run_one : sees (exec (.run 1 0x41#8) (decAt [] [.ok])) (fun s => (s.writeTrace, s.dState)) =
    some ([0x41#8], .readingHeader) := by decide
theorem test_exec_run_fails : sees (exec (.run 3 0x41#8) (decAt [] [.ok, .fail 9]))
    (fun s => (s.writeTrace, s.k, s.dState, s.errCause)) = some ([0x41#8], 1, .emittingRun, .wrFail) := by decide
/-- LIT: D13's body, and a missing answer that leaves the record half way. -/
theorem test_exec_lit : sees (exec (.lit [0x80#8, 0x00#8]) (decAt [] [.ok, .ok])) (fun s => (s.writeTrace, s.lbuf)) =
    some ([0x80#8, 0x00#8], [(0, 0x80#8), (1, 0x00#8)]) := by decide
theorem test_exec_lit_waits : sees (exec (.lit [0x80#8, 0x00#8]) (decAt [] [.ok])) (fun s => (s.status, s.k, s.dPhase)) =
    some (.busy, 1, .drain) := by decide
/-- END: D1 and X6. -/
theorem test_exec_end : sees (exec (.endRec false) (decAt [] [.ok])) (fun s => (s.status, s.events)) =
    some (.ok, [.flush .ok]) := by decide
theorem test_exec_end_fails : sees (exec (.endRec true) (decAt [] [.fail 9])) (fun s => (s.status, s.errCause, s.errKind, s.dState)) =
    some (.fail, .flFail, 9, .done) := by decide
/-- C2v, C4v. -/
theorem test_exec_encode : sees (exec .encode State.reset) (fun s => (s.mode, s.status, s.eState)) =
    some (.encode, .busy, .load) := by decide
theorem test_exec_encode_busy : sees (exec .encode (decAt [] [])) (fun s => (s.mode, s.status)) =
    some (.decode, .busy) := by decide
/-- C3v, and C5v's cleared cause. -/
theorem test_exec_decode : sees (exec .decode State.reset) (fun s => (s.mode, s.status, s.dState)) =
    some (.decode, .busy, .readingHeader) := by decide
theorem test_exec_decode_after_fail :
    sees (exec .decode { State.reset with status := .fail, errCause := .eofLit }) (fun s => (s.status, s.errCause)) =
    some (.busy, .noCause) := by decide

/-- D20's first record in one machine step: RPOS 2, WPOS 3. -/
theorem test_step_run : sees (step (decAt [.byte 0x03#8, .byte 0x41#8, .byte 0x80#8] [.ok, .ok, .ok, .ok]))
    (fun s => (s.rpos, s.wpos, s.inQueue)) = some (2, 3, [.byte 0x80#8]) := by decide
/-- D5 in one machine step. -/
theorem test_step_no_value : sees (step (decAt [.byte 0x03#8, .eos] [])) (fun s => (s.errCause, s.rpos, s.wpos)) =
    some (.eofVal, 1, 0) := by decide
/-- R157, X6: after FL_FAIL on `00` and a reset the sink is still unknown, although nothing is buffered; a launch on fresh
streams ends that. -/
theorem test_sink_lost :
    sees (exec (.endRec false) (decAt [] [.fail 9])) (fun s => (s.sinkLost, s.outBuffer)) = some (true, []) ∧
    sees (step (pinned { State.reset with status := .fail, sinkLost := true } { HostInput.low with rst := true }))
      (fun s => (s.status, s.sinkLost)) = some (.idle, true) ∧
    sees (step (pinned { State.reset with status := .fail, sinkLost := true } (HostInput.launch false [] [])))
      (fun s => (s.status, s.sinkLost)) = some (.busy, false) := by decide
/-- C1v, C7v, R169. -/
theorem test_step_reset : sees (step (pinned { State.reset with status := .fail, errCause := .eofLit } { HostInput.low with rst := true }))
    (fun s => (s.status, s.errCause)) = some (.idle, .noCause) := by decide
theorem test_step_idle : sees (step State.reset) (fun s => (s.status, s.events)) = some (.idle, []) := by decide
/-- A table word runs as the first instruction after reset. -/
theorem test_first_run : sees (step (State.reset.withFetchWord 16 0x4103)) (fun s => s.writeTrace) =
    some [0x41#8, 0x41#8, 0x41#8] := by decide
theorem test_first_end : sees (step (State.reset.withFetchWord 8 0x00)) (fun s => s.status) = some .ok := by decide
theorem test_first_lit : sees (step (State.reset.withFetchWord 8 0x82)) (fun s => s.writeTrace) =
    some [0x00#8, 0x00#8] := by decide
theorem test_first_encode : sees (step (State.reset.withFetchWord 1 0)) (fun s => s.eState) = some .load := by decide
theorem test_first_decode : sees (step (State.reset.withFetchWord 1 1)) (fun s => (s.status, s.mode)) =
    some (.busy, .decode) := by decide

/-- E4, E7 and D16 through the reference functions. -/
theorem test_ref_encode : refEncode .split [0x61#8, 0x62#8, 0x62#8, 0x62#8] =
    [0x81#8, 0x61#8, 0x03#8, 0x62#8, 0x00#8] := by decide
theorem test_ref_decode : refDecode [0x01#8, 0x41#8, 0x02#8, 0x42#8, 0x80#8, 0xFF#8, 0xFF#8] =
    { out := [0x41#8, 0x42#8, 0x42#8], consumed := 5, cause := .noCause } := by decide

/-! ## Pins (R172) -/

theorem test_in_err_overrides : inAnswerOfPins { inData := 0x41#8, inEos := true, inErr := true, inErrkind := 9 } = .fail 9 := by decide
theorem test_out_data : (encAt .txEnd [] []).outData = some 0x00#8 ∧ (encAt .txEnd [] []).outValid = true ∧
    (encAt .txEnd [] []).inReady = false := by decide

/-! ## Witnesses: states and operands that meet the hypotheses of each statement -/

theorem witness_DecodeOfEncode : (Instr.run 1 0x00#8).isRecord = true ∧ (Instr.run 1 0x00#8).wellFormed = true ∧
    (Instr.run 127 0xFF#8).wellFormed = true ∧ (Instr.lit [0x00#8]).wellFormed = true ∧
    (Instr.lit (List.replicate 127 0x00#8)).wellFormed = true := by decide +kernel

theorem witness_EncodeOfDecode : decodeRecord [0xFF#8] = .error .shortBody ∧
    decodeRecord [0x80#8, 0x01#8] = .ok (.endRec true, [0x01#8]) ∧
    decodeRecord [0x81#8, 0x00#8] = .ok (.lit [0x00#8], []) := by refine ⟨?_, ?_, ?_⟩ <;> rfl

theorem witness_HeaderClassification : classify 0x00#8 = .ending ∧ classify 0x80#8 = .ending ∧ classify 0x01#8 = .run ∧
    classify 0x7F#8 = .run ∧ classify 0x81#8 = .literal ∧ classify 0xFF#8 = .literal := by decide

theorem witness_HeaderAssembly : hdrLit 1#8 = 0x81#8 ∧ hdrLit 127#8 = 0xFF#8 ∧ hdrRun 127#7 = 0x7F#8 := by decide

theorem witness_HeaderTellsLength : decodeRecord [0x80#8, 0x41#8] = .ok (.endRec true, [0x41#8]) ∧
    decodeRecord [0x01#8, 0x41#8] = .ok (.run 1 0x41#8, []) ∧
    decodeRecord [0x81#8, 0x41#8, 0x42#8] = .ok (.lit [0x41#8], [0x42#8]) := by refine ⟨?_, ?_, ?_⟩ <;> rfl

theorem witness_NoIllegalEncoding : 127 ≤ (List.replicate 127 0x00#8).length ∧ decodeRecord [] = .error .noHeader ∧
    decodeRecord [0x01#8] = .error .noValue ∧ decodeRecord [0x81#8] = .error .shortBody := by
  refine ⟨by decide +kernel, ?_, ?_, ?_⟩ <;> rfl

theorem witness_EncodeStarts : State.reset.status ≠ .busy ∧ { State.reset with status := .fail }.status ≠ .busy := by decide

theorem witness_DecodeStarts : State.reset.status ≠ .busy ∧ { State.reset with status := .ok }.status ≠ .busy := by decide

theorem witness_StartIsTaken :
    (pinned State.reset (HostInput.launch true [] [])).host = HostInput.launch true [] [] :: [] ∧
    (pinned State.reset (HostInput.launch true [] [])).status ≠ .busy ∧ (HostInput.launch true [] []).rst = false ∧
    (HostInput.launch true [] []).start = true ∧ (HostInput.launch false [] []).decompress = false ∧
    (decAt [] []).status = .busy := by decide

theorem witness_RunPhases :
    { decAt [.byte 0x41#8] [] with dState := .emittingRun }.dState = .emittingRun ∧
    { decAt [.byte 0x41#8] [] with dState := .emittingRun }.dPhase = .fill ∧
    { decAt [.byte 0x41#8] [] with dState := .emittingRun }.inQueue = .byte 0x41#8 :: [] ∧
    (decAt [.eos] []).inQueue = .eos :: [] ∧ (decAt [.fail 1] []).inQueue = .fail 1 :: [] ∧
    { decAt [] [.ok] with dState := .emittingRun, dPhase := .drain }.dPhase = .drain ∧
    (decAt [] [.ok]).outQueue = .ok :: [] ∧ (decAt [] [.fail 1]).outQueue = .fail 1 :: [] := by decide

theorem witness_RunCompletes : (decAt [] [.ok, .fail 1]).status = .busy ∧ (decAt [] [.ok, .fail 1]).mode = .decode ∧
    (1 : Len) ≠ 0 ∧ (decAt [] [.ok, .fail 1]).outQueue = List.replicate (1 : Len).toNat .ok ++ [.fail 1] ∧
    (decAt [] (List.replicate 127 .ok)).outQueue = List.replicate (127 : Len).toNat .ok ++ [] := by decide +kernel

theorem witness_RunFrame : (nextState? (exec (.run 1 0x41#8) (decAt [] [.ok]))).isSome = true ∧
    (nextState? (exec (.run 1 0x41#8) State.reset)).isSome = true := by decide

theorem witness_LitPhases :
    { decAt [.byte 0x41#8] [] with dState := .emittingLiteral, k := 126, len := 127 }.k.toNat < 127 ∧
    { decAt [.byte 0x41#8] [] with dState := .emittingLiteral, k := 126, len := 127 }.dPhase = .fill ∧
    { decAt [.byte 0x41#8] [] with dState := .emittingLiteral }.inQueue = .byte 0x41#8 :: [] ∧
    (decAt [.eos] []).inQueue = .eos :: [] ∧ (decAt [.fail 1] []).inQueue = .fail 1 :: [] ∧
    readCell { decAt [] [.ok] with lbuf := [(0, 0x41#8)] }.lbuf
      { decAt [] [.ok] with lbuf := [(0, 0x41#8)] }.k.toNat = some 0x41#8 ∧
    { decAt [] [.ok] with dState := .emittingLiteral, dPhase := .drain }.dState = .emittingLiteral ∧
    { decAt [] [.ok] with dState := .emittingLiteral, dPhase := .drain }.dPhase = .drain ∧
    (decAt [] [.ok]).outQueue = .ok :: [] ∧ (decAt [] [.fail 1]).outQueue = .fail 1 :: [] := by decide

theorem witness_LitCompletes : (decAt [] [.ok]).status = .busy ∧ (decAt [] [.ok]).mode = .decode ∧
    (Instr.lit [0x00#8]).wellFormed = true ∧ (decAt [] [.ok]).outQueue = List.replicate [0x00#8].length .ok ++ [] ∧
    (Instr.lit (List.replicate 127 0xFF#8)).wellFormed = true := by decide +kernel

theorem witness_LitFrame : (nextState? (exec (.lit [0x00#8]) (decAt [] [.ok]))).isSome = true ∧
    (decAt [] [.ok]).decoding = true := by decide

theorem witness_EndCompletes : (decAt [] [.ok]).status = .busy ∧ (decAt [] [.ok]).mode = .decode ∧
    (decAt [] [.ok]).outQueue = .ok :: [] ∧ (decAt [] [.fail 1]).outQueue = .fail 1 :: [] := by decide

theorem witness_EndAndCommandFrame : (nextState? (exec (.endRec true) (decAt [] [.ok]))).isSome = true ∧
    (nextState? (exec .encode State.reset)).isSome = true ∧ (nextState? (exec .decode State.reset)).isSome = true := by
  decide

theorem witness_StepRunsDecoded :
    hostTurn (decAt [.byte 0x01#8, .byte 0x41#8, .eos] [.ok]) = .running (decAt [.byte 0x01#8, .byte 0x41#8, .eos] [.ok]) ∧
    (decAt [.byte 0x01#8, .byte 0x41#8, .eos] [.ok]).mode = .decode ∧
    (decAt [.byte 0x01#8, .byte 0x41#8, .eos] [.ok]).dState = .readingHeader ∧
    (Instr.run 1 0x41#8).isRecord = true ∧ (Instr.run 1 0x41#8).wellFormed = true ∧
    (decAt [.byte 0x01#8, .byte 0x41#8, .eos] [.ok]).inQueue = (recordBytes (.run 1 0x41#8)).map .byte ++ [.eos] ∧
    hostTurn (pinned State.reset { HostInput.low with start := true }) = .begin false State.reset := by decide

theorem witness_RecordAdvancesPositions :
    (decAt [.byte 0x81#8, .byte 0x00#8] (List.replicate 127 .ok)).status = .busy ∧
    (decAt [.byte 0x81#8, .byte 0x00#8] []).mode = .decode ∧ (decAt [] []).dState = .readingHeader ∧
    (decAt [] []).host = [] ∧ (Instr.lit [0x00#8]).isRecord = true ∧ (Instr.lit [0x00#8]).wellFormed = true ∧
    (decAt [.byte 0x81#8, .byte 0x00#8] []).inQueue = (recordBytes (.lit [0x00#8])).map .byte ++ [] ∧
    (decAt [] (List.replicate 127 .ok)).outQueue = List.replicate 127 .ok ++ [] := by decide +kernel

theorem witness_MissingHeader : (decAt [.eos] []).status = .busy ∧ (decAt [.eos] []).mode = .decode ∧
    (decAt [.eos] []).dState = .readingHeader ∧ (decAt [.eos] []).host = [] ∧
    (decAt [.eos] []).inQueue = .eos :: [] := by decide

theorem witness_TruncatedLiteral : (decAt [.byte 0x81#8, .eos] []).status = .busy ∧
    (decAt [.byte 0x81#8, .eos] []).mode = .decode ∧ (decAt [] []).dState = .readingHeader ∧ (decAt [] []).host = [] ∧
    classify 0x81#8 = .literal ∧ ([] : List Byte).length < (hdrLen 0x81#8).toNat ∧
    (decAt [.byte 0x81#8, .eos] []).inQueue = (0x81#8 :: ([] : List Byte)).map .byte ++ .eos :: [] ∧
    (List.replicate 126 0x00#8).length < (hdrLen 0xFF#8).toNat ∧
    { decAt [.eos] [] with dState := .emittingLiteral, dPhase := .fill, k := 126, len := 127 }.decoding = true ∧
    { decAt [.eos] [] with dState := .emittingLiteral, dPhase := .fill }.inQueue = .eos :: [] := by decide +kernel

theorem witness_MissingRunValue : (decAt [.byte 0x7F#8, .eos] []).status = .busy ∧
    (decAt [.byte 0x7F#8, .eos] []).mode = .decode ∧ (decAt [] []).dState = .readingHeader ∧ (decAt [] []).host = [] ∧
    classify 0x01#8 = .run ∧ classify 0x7F#8 = .run ∧
    (decAt [.byte 0x7F#8, .eos] []).inQueue = .byte 0x7F#8 :: .eos :: [] ∧
    { decAt [.eos] [] with dState := .emittingRun, dPhase := .fill }.decoding = true ∧
    { decAt [.eos] [] with dState := .emittingRun, dPhase := .fill }.inQueue = .eos :: [] := by decide

theorem witness_RaiseWritesThree : { State.reset with status := .fail }.status = .fail ∧
    { State.reset with status := .fail }.host = [] ∧ HostInput.low.rst = false ∧ HostInput.low.start = false := by decide

theorem witness_WriteFailure : (encAt .txEnd [] [.fail 1]).issues = some (.outWrite 0x00#8) ∧
    (encAt .txEnd [] [.fail 1]).outQueue = .fail 1 :: [] ∧
    { decAt [] [.fail 1] with dState := .emittingRun, dPhase := .drain, val := 0xFF#8 }.issues =
      some (.outWrite 0xFF#8) := by decide

theorem witness_ReadAndFlushFailure : (decAt [.fail 1] []).issues = some .inRead ∧
    (decAt [.fail 1] []).inQueue = .fail 1 :: [] ∧ (encAt .flush [] [.fail 1]).issues = some .outFlush ∧
    (encAt .flush [] [.fail 1]).outQueue = .fail 1 :: [] := by decide

theorem witness_DrainFailureLeavesPart : (decAt [] [.fail 1]).status = .busy ∧ (decAt [] [.fail 1]).mode = .decode ∧
    (Instr.run 1 0x41#8).wellFormed = true ∧ 0 < (expansion (.run 1 0x41#8)).length ∧
    (decAt [] [.fail 1]).outQueue = List.replicate 0 .ok ++ .fail 1 :: [] ∧
    126 < (expansion (.run 127 0x41#8)).length := by decide +kernel

theorem witness_SinkUnknownAfterFailure : (decAt [.eos] []).status = .busy ∧
    sees (step (decAt [.eos] [])) (fun t => (t.status, t.sinkLost)) = some (.fail, true) ∧
    (pinned { State.reset with sinkLost := true } { HostInput.low with rst := true }).sinkLost = true ∧
    sees (step (pinned { State.reset with sinkLost := true } { HostInput.low with rst := true })) (fun t => t.status) =
      some .idle ∧
    { HostInput.low with rst := true }.fresh = false ∧ (pinned State.reset (HostInput.launch true [] [])).status ≠ .busy ∧
    (HostInput.launch true [] []).fresh = true := by decide

theorem witness_EncoderFailures :
    { encAt .load [] [] with inQueue := [.fail 1] }.encoding = true ∧
    sees (unitTick { encAt .load [] [] with inQueue := [.fail 1] }) (fun t => t.status) = some .fail ∧
    { encAt .load [] [] with inQueue := [.eos] }.inQueue = .eos :: [] ∧ (encAt .load [] []).eState = .load ∧
    (encAt .load [] []).par.ibufCap = none ∧ { encAt .load [] [] with inQueue := [.byte 0#8] }.inQueue = .byte 0#8 :: [] := by
  decide

theorem witness_DecoderFailures : (decAt [.eos] []).decoding = true ∧
    sees (unitTick (decAt [.eos] [])) (fun t => t.status) = some .fail ∧
    sees (unitTick { decAt [] [.fail 1] with dState := .done }) (fun t => t.status) = some .fail := by decide

theorem witness_LoadStep : (encAt .load [] []).eState = .load ∧
    { encAt .load [] [] with inQueue := [.byte 0#8], par := { ibufCap := some 0, litFill := .split } }.par.ibufCap = some 0 ∧
    withinCap { ibufCap := some 1, litFill := .split } (0 + 1) = true ∧
    { encAt .load [] [] with inQueue := [.eos] }.inQueue = .eos :: [] ∧
    { encAt .load [] [] with inQueue := [.fail 1] }.inQueue = .fail 1 :: [] := by decide

theorem witness_RunMeasurement : 0 < (encAt .scan [0x41#8] []).n ∧
    (∀ a, a < (encAt .scan [0x41#8] []).n → (readCell (encAt .scan [0x41#8] []).ibuf a).isSome = true) ∧
    (measureRun (encAt .scan [0x41#8] []) 0 127).toOption = some 1 ∧
    (measureRun (encAt .scan [0x41#8] []) 0 3).toOption = some 1 := by decide

theorem witness_ScanStep : (encAt .scan [] []).eState = .scan ∧ (encAt .scan [] []).i = (encAt .scan [] []).n ∧
    (encAt .scan [0x41#8] []).i ≠ (encAt .scan [0x41#8] []).n ∧
    (measureRun (encAt .scan [0x41#8, 0x41#8] []) 0 127).toOption = some 2 ∧
    (measureRun (encAt .scan [0x41#8, 0x41#8, 0x41#8] []) 0 127).toOption = some 3 := by decide

theorem witness_LiteralAccumulation : (encAt .litAcc [] []).eState = .litAcc ∧ (encAt .litAcc [] []).n ≤ (encAt .litAcc [] []).i ∧
    127 ≤ { encAt .litAcc [] [] with litLen := 127 }.litLen.toNat ∧
    { encAt .litAcc [0x41#8, 0x41#8] [] with litLen := 126 }.litLen.toNat < 127 ∧
    (encAt .litAcc [0x41#8, 0x41#8] []).i < (encAt .litAcc [0x41#8, 0x41#8] []).n ∧
    (measureRun (encAt .litAcc [0x41#8, 0x41#8] []) 0 3).toOption = some 2 ∧
    (measureRun (encAt .litAcc [0x41#8, 0x41#8, 0x41#8] []) 0 3).toOption = some 3 ∧ 127 < 126 + 2 ∧ 125 + 2 ≤ 127 := by
  decide

theorem witness_EmitRun : { encAt .txRun [0x41#8, 0x41#8, 0x41#8] [.ok, .ok] with runLen := 3 }.encoding = true ∧
    (encAt .txRun [0x41#8, 0x41#8, 0x41#8] [.ok, .ok]).eState = .txRun ∧ (encAt .txRun [] []).txk = 0 ∧
    (encAt .txRun [] []).host = [] ∧ readCell (encAt .txRun [0x41#8, 0x41#8, 0x41#8] []).ibuf 0 = some 0x41#8 ∧
    (encAt .txRun [] [.ok, .ok]).outQueue = .ok :: .ok :: [] ∧ (encAt .txRun [] [.fail 1]).outQueue = .fail 1 :: [] ∧
    (encAt .txRun [] [.ok, .fail 1]).outQueue = .ok :: .fail 1 :: [] := by decide

theorem witness_EmitLit : { encAt .txLit [0x41#8] [.ok, .ok] with litLen := 1, i := 1 }.encoding = true ∧
    (encAt .txLit [0x41#8] [.ok, .ok]).eState = .txLit ∧ (encAt .txLit [] []).txk = 0 ∧ (encAt .txLit [] []).host = [] ∧
    { encAt .txLit [0x41#8] [.ok, .ok] with litLen := 1 }.litLen.toNat = [0x41#8].length ∧
    [0x41#8].length ≤ literalMax .split ∧
    (∀ j, j < [0x41#8].length → readCell (encAt .txLit [0x41#8] []).ibuf (0 + j) = [0x41#8][j]?) ∧
    (encAt .txLit [0x41#8] [.ok, .ok]).outQueue = List.replicate (1 + [0x41#8].length) .ok ++ [] := by decide

theorem witness_FinishAndFlush : (encAt .txEnd [] [.ok, .ok]).encoding = true ∧ (encAt .txEnd [] [.ok, .ok]).eState = .txEnd ∧
    (encAt .txEnd [] [.ok, .ok]).host = [] ∧ (encAt .txEnd [] [.ok, .ok]).outQueue = .ok :: .ok :: [] := by decide

theorem witness_EmptyInput : { encAt .load [] [.ok, .ok] with inQueue := [.eos] }.encoding = true ∧
    (encAt .load [] [.ok, .ok]).eState = .load ∧ (encAt .load [] [.ok, .ok]).n = 0 ∧ (encAt .load [] []).host = [] ∧
    { encAt .load [] [.ok, .ok] with inQueue := [.eos] }.inQueue = .eos :: [] ∧
    (encAt .load [] [.ok, .ok]).outQueue = .ok :: .ok :: [] := by decide

theorem witness_ResetInput : (pinned State.reset { HostInput.low with rst := true }).host = { HostInput.low with rst := true } :: [] ∧
    { HostInput.low with rst := true }.rst = true ∧ (pinned State.reset HostInput.low).status ≠ .busy ∧
    (pinned (decAt [] []) { HostInput.low with rst := true }).status = .busy := by decide

theorem witness_IdleUntilStart : State.reset.status ≠ .busy ∧ State.reset.host = [] ∧
    (pinned State.reset HostInput.low).host = HostInput.low :: [] ∧ HostInput.low.rst = false ∧
    HostInput.low.start = false ∧ HostInput.low.fresh = false := by decide

theorem witness_StatusOutputs : State.reset.status = .idle ∧ (decAt [] []).status ≠ .idle := by decide

theorem witness_StatusLifeCycle : (nextState? (microStep (decAt [.eos] []))).isSome = true ∧
    sees (microStep { decAt [] [.ok] with dState := .done }) (fun t => t.status) = some .ok := by decide

theorem witness_OneEventPerStep : sees (microStep (decAt [.byte 0x00#8] [])) (fun t => t.events) =
    some [.rd (.byte 0x00#8)] := by decide

theorem witness_StepIsMicroSteps : (decAt [.byte 0x01#8, .byte 0x41#8] [.ok]).host.length ≤ 1 ∧
    (pinned State.reset (HostInput.launch true [] [])).host.length ≤ 1 ∧
    (pinned (decAt [] []) HostInput.low).host.length ≤ 1 := by decide

theorem witness_WaitingChangesNothing : (decAt [] []).issues = some .inRead ∧ (decAt [] []).inQueue = [] ∧
    (encAt .flush [] []).issues = some .outFlush ∧ (encAt .txEnd [] []).issues = some (.outWrite 0x00#8) ∧
    (encAt .txEnd [] []).outQueue = [] ∧ (encAt .txEnd [] []).host = [] := by decide

/-- A load phase that has read one byte. -/
def loading : State := { encAt .load [0x41#8] [] with inQueue := [.eos], events := [readEvent 0x41#8] }

theorem witness_ReadsBeforeWrites : loading.inv = true ∧ EncodeOrder loading ∧ (nextState? (step loading)).isSome = true :=
  ⟨by decide, fun _ _ => ⟨[0x41#8], .inl ⟨rfl, rfl, rfl⟩⟩, by decide⟩

theorem witness_FlushIsLast : FlushOnce { decAt [] [.ok] with dState := .done } ∧
    (nextState? (step { decAt [] [.ok] with dState := .done })).isSome = true :=
  ⟨⟨fun _ _ he => (List.not_mem_nil he).elim, by simp [decAt]⟩, by decide⟩

theorem witness_ErrKindFits : kindsFit (decAt [.eos] []) ∧ (decAt [.eos] []).errKind < 2 ^ Config.kindW ∧
    (nextState? (step (decAt [.eos] []))).isSome = true :=
  ⟨⟨by simp [decAt], by simp [decAt], by simp [decAt, State.reset]⟩, Nat.two_pow_pos _, by decide⟩

theorem witness_UnitsAreSeparate : (nextState? (unitTick (decAt [.byte 0x03#8] []))).isSome = true ∧
    (decAt [] []).mode = .decode ∧ (encAt .scan [] []).mode = .encode ∧ (encAt .scan [] []).eState ≠ .load ∧
    (nextState? (unitTick (encAt .scan [] []))).isSome = true := by decide

/-- A literal half drained. -/
def draining : State :=
  { decAt [] [.ok] with
    dState := .emittingLiteral, dPhase := .drain, len := 2, k := 1, lbuf := [(0, 0x41#8), (1, 0x42#8)] }

theorem witness_StepKeepsInvariant : draining.inv = true ∧ (nextState? (step draining)).isSome = true ∧
    (encAt .scan [0x41#8] []).inv = true := by decide

theorem witness_NoFaultUnderInvariant : draining.inv = true ∧
    { encAt .txLit [0x41#8] [.ok] with litLen := 1, i := 1, txk := 1 }.inv = true := by decide

theorem witness_RoundTripLaw : LitFill.split ≠ .chunk ∧ LitFill.defer ≠ .chunk := by decide

theorem witness_EncodeInvocation :
    Launched .encode [0x41#8] 4 { encAt .load [] (List.replicate 4 .ok) with inQueue := byteStream [0x41#8] } ∧
    (refEncode .split [0x41#8]).length + 1 ≤ 4 :=
  ⟨⟨⟨rfl, rfl⟩, fun _ => ⟨rfl, rfl, rfl⟩, by simp, ⟨rfl, rfl⟩, rfl, rfl, rfl, fun _ => rfl, rfl⟩, by decide⟩

theorem witness_DecodeInvocation :
    Launched .decode [0x00#8] 1 (decAt (byteStream [0x00#8]) [.ok]) ∧ (refDecode [0x00#8]).out.length + 1 ≤ 1 ∧
    Launched .decode [] 1 (decAt (byteStream []) [.ok]) ∧ (refDecode []).out.length + 1 ≤ 1 :=
  ⟨⟨⟨rfl, rfl⟩, by simp, fun _ => rfl, ⟨rfl, rfl⟩, rfl, rfl, rfl, by simp, rfl⟩, by decide,
    ⟨⟨rfl, rfl⟩, by simp, fun _ => rfl, ⟨rfl, rfl⟩, rfl, rfl, rfl, by simp, rfl⟩, by decide⟩

theorem witness_InvocationsAreIndependent :
    sameSurroundings State.reset { State.reset with ibuf := [(0, 0x41#8)], n := 1, k := 5, lbuf := [(3, 0x42#8)] } ∧
    State.reset.status ≠ .busy ∧ (nextState? (exec .encode State.reset)).isSome = true ∧
    (nextState? (exec .encode { State.reset with ibuf := [(0, 0x41#8)], n := 1, k := 5, lbuf := [(3, 0x42#8)] })).isSome =
      true :=
  ⟨⟨rfl, rfl, rfl, rfl, rfl, rfl, rfl, rfl, rfl, rfl, rfl, rfl⟩, by decide, by decide, by decide⟩

end Sys2Proof.Tests
end

/-! PROOFS of the family 00_scope.md. What the control block can decide, what a step of either unit makes of the event
sequence, and from these: a step is silent or performs one primitive (O44), and a machine step is a whole number of the
spec's own steps (O45). -/

namespace Sys2Proof.Machine

/-! ## The control block's turn -/

/-- The sample of a step is the next one presented, or pins low when there is none. -/
theorem hostTurn_eq (s : State) :
    hostTurn s = controlTurn (s.host.headD HostInput.low) { s with host := s.host.tail } := by
  unfold hostTurn
  split <;> rename_i h
  · simp only [h, List.headD_nil, List.tail_nil]
    rw [← h]
  · simp only [h, List.headD_cons, List.tail_cons]

theorem controlTurn_settled {p : HostInput} {s t : State} (h : controlTurn p s = .settled t) :
    s.status ≠ .busy ∧ ((p.rst = true ∧ t = resetCore (deliver p s)) ∨
      (p.rst = false ∧ p.start = false ∧ t = deliver p s)) := by
  unfold controlTurn at h
  split at h
  · repeat' split at h
    all_goals cases h
  · rename_i hb
    refine ⟨by simpa [State.busy] using hb, ?_⟩
    split at h
    · exact .inl ⟨‹_›, by injection h with h; exact h.symm⟩
    · split at h
      · cases h
      · exact .inr ⟨Bool.eq_false_iff.mpr ‹_›, Bool.eq_false_iff.mpr ‹_›, by injection h with h; exact h.symm⟩

theorem controlTurn_begin {p : HostInput} {s t : State} {d : Bool} (h : controlTurn p s = .begin d t) :
    s.status ≠ .busy ∧ p.rst = false ∧ p.start = true ∧ d = p.decompress ∧ t = deliver p s := by
  unfold controlTurn at h
  split at h
  · repeat' split at h
    all_goals cases h
  · rename_i hb
    split at h
    · cases h
    · split at h
      · injection h with hd ht
        exact ⟨by simpa [State.busy] using hb, Bool.eq_false_iff.mpr ‹_›, ‹_›, hd.symm, ht.symm⟩
      · cases h

theorem controlTurn_running {p : HostInput} {s t : State} (h : controlTurn p s = .running t) :
    s.status = .busy ∧ p.rst = false ∧ p.fresh = false ∧ t = deliver p s := by
  unfold controlTurn at h
  split at h
  · rename_i hb
    split at h
    · cases h
    · split at h
      · cases h
      · injection h with h
        exact ⟨by simpa [State.busy] using hb, Bool.eq_false_iff.mpr ‹_›, Bool.eq_false_iff.mpr ‹_›, h.symm⟩
  · repeat' split at h
    all_goals cases h

/-- What is presented at a step does not change the primitive the core issues there. -/
theorem issues_deliver (p : HostInput) (ps : List HostInput) (s : State) :
    (deliver p { s with host := ps }).issues = s.issues := by
  unfold deliver
  split <;> rfl

/-! ## What a step of a unit does to the event sequence -/

/-- No event is made and no sample taken. -/
def SameTrace (s t : State) : Prop := t.events = s.events ∧ t.host = s.host

/-- One step of R11 at which the core issues the primitive `o`: silent, or one event of that primitive; the samples
still to come stay. -/
def Performs (o : Option Primitive) (s t : State) : Prop :=
  t.host = s.host ∧
    (t.events = s.events ∨ ∃ prim e, o = some prim ∧ prim.answeredBy e = true ∧ t.events = s.events ++ [e])

theorem SameTrace.performs {s t : State} (o : Option Primitive) (h : SameTrace s t) : Performs o s t :=
  ⟨h.2, .inl h.1⟩

theorem performs_self (o : Option Primitive) (s : State) : Performs o s s := ⟨rfl, .inl rfl⟩

/-- A state with one event more, made by an answer to the primitive, and then changed without a trace. -/
theorem performs_one {s u t : State} {prim : Primitive} {e : Event} (ht : SameTrace u t)
    (he : prim.answeredBy e = true) (hu : u.events = s.events ++ [e] ∧ u.host = s.host) : Performs (some prim) s t :=
  ⟨ht.2.trans hu.2, .inr ⟨prim, e, rfl, he, ht.1.trans hu.1⟩⟩

theorem sameTrace_raise (s : State) (c : ErrCause) (d : FailKind) : SameTrace s (s.raise c d) := ⟨rfl, rfl⟩

theorem sameTrace_drained (s : State) : SameTrace s (drained s) := ⟨drained_events s, drained_host s⟩

/-- The rest of a step after its primitive makes no event of its own. -/
def Silent (f : State → Res) : Prop := ∀ s t, f s = .next t → SameTrace s t

/-- The rest of a step that only updates registers. -/
theorem silent_next {g : State → State} (hg : ∀ s, SameTrace s (g s)) : Silent fun s => .next (g s) := by
  intro s t h
  injection h with h
  exact h ▸ hg s

theorem inRead_performs {s t : State} {rest : InAnswer → State → Res} (h : inRead s rest = .next t)
    (hr : ∀ a, Silent (rest a)) : Performs (some .inRead) s t := by
  rcases inRead_next h with ⟨-, rfl⟩ | ⟨a, q, -, h⟩
  · exact performs_self _ _
  · exact performs_one (hr a _ _ h) (e := .rd a) rfl ⟨rfl, rfl⟩

theorem readThen_performs {s t : State} {c : ErrCause} {found : Byte → State → Res}
    (h : readThen c s found = .next t) (hf : ∀ b, Silent (found b)) : Performs (some .inRead) s t := by
  refine inRead_performs h fun a => ?_
  cases a with
  | byte b => exact hf b
  | eos => exact silent_next fun s => sameTrace_raise s _ _
  | fail k => exact silent_next fun s => sameTrace_raise s _ _

theorem writeThen_performs {s t : State} {b : Byte} {done : State → Res}
    (h : writeThen b s done = .next t) (hd : Silent done) : Performs (some (.outWrite b)) s t := by
  have answered (a : OutAnswer) : (Primitive.outWrite b).answeredBy (.wr b a) = true := decide_eq_true rfl
  rcases writeThen_next h with ⟨-, rfl⟩ | ⟨q, -, h⟩ | ⟨k, q, -, rfl⟩
  · exact performs_self _ _
  · exact performs_one (hd _ _ h) (answered .ok) ⟨rfl, rfl⟩
  · exact performs_one (sameTrace_raise _ _ _) (answered (.fail k)) ⟨rfl, rfl⟩

theorem flushThen_performs {s t : State} {done : State → Res}
    (h : flushThen s done = .next t) (hd : Silent done) : Performs (some .outFlush) s t := by
  rcases flushThen_next h with ⟨-, rfl⟩ | ⟨q, -, h⟩ | ⟨k, q, -, rfl⟩
  · exact performs_self _ _
  · exact performs_one (hd _ _ h) (e := .flush .ok) rfl ⟨rfl, rfl⟩
  · exact performs_one (sameTrace_raise _ _ _) (e := .flush (.fail k)) rfl ⟨rfl, rfl⟩

/-! ### The encoder -/

theorem encLoad_performs {s t : State} (h : encLoad s = .next t) : Performs (some .inRead) s t := by
  refine inRead_performs h fun a u v hu => ?_
  cases a with
  | byte b =>
    dsimp only at hu
    split at hu
    · cases hu
    · obtain ⟨-, hu⟩ := writeIbuf_next hu
      cases hu
      exact ⟨rfl, rfl⟩
  | eos => cases hu; exact ⟨rfl, rfl⟩
  | fail k => cases hu; exact sameTrace_raise _ _ _

theorem encScan_silent : Silent encScan := by
  intro s t h
  unfold encScan at h
  repeat' split at h
  all_goals cases h
  all_goals exact ⟨rfl, rfl⟩

theorem encLitAcc_silent : Silent encLitAcc := by
  intro s t h
  unfold encLitAcc at h
  repeat' split at h
  all_goals cases h
  all_goals exact ⟨rfl, rfl⟩

theorem encEmitRun_performs {s t : State} (hs : s.eState = .txRun) (h : encEmitRun s = .next t) :
    Performs (encIssues s) s t := by
  unfold encEmitRun txRun at h
  split at h
  · rename_i hk
    rw [show encIssues s = some (.outWrite (hdrRun s.runLen)) by simp [encIssues, hs, hk]]
    exact writeThen_performs h (silent_next fun _ => ⟨rfl, rfl⟩)
  · rename_i hk
    obtain ⟨b, hb, h⟩ := readIbuf_next h
    rw [show encIssues s = some (.outWrite b) by rw [encIssues, hs]; exact (if_neg hk).trans (by rw [hb]; rfl)]
    exact writeThen_performs h (silent_next fun _ => ⟨rfl, rfl⟩)

theorem encEmitLit_performs {s t : State} (hs : s.eState = .txLit) (h : encEmitLit s = .next t) :
    Performs (encIssues s) s t := by
  unfold encEmitLit txLit at h
  split at h
  · rename_i hk
    rw [show encIssues s = some (.outWrite (hdrLit s.litLen)) by simp [encIssues, hs, hk]]
    exact writeThen_performs h (silent_next fun _ => ⟨rfl, rfl⟩)
  · rename_i hk
    obtain ⟨b, hb, h⟩ := readIbuf_next h
    rw [show encIssues s = some (.outWrite b) by rw [encIssues, hs]; exact (if_neg hk).trans (by rw [hb]; rfl)]
    refine writeThen_performs h fun u v hu => ?_
    dsimp only at hu
    split at hu
    all_goals cases hu
    all_goals exact ⟨rfl, rfl⟩

theorem encTick_performs {s t : State} (h : encTick s = .next t) : Performs (encIssues s) s t := by
  cases hs : s.eState <;> simp only [encTick, hs] at h
  case txRun => exact encEmitRun_performs hs h
  case txLit => exact encEmitLit_performs hs h
  all_goals simp only [encIssues, hs]
  case load => exact encLoad_performs h
  case scan => exact (encScan_silent _ _ h).performs _
  case litAcc => exact (encLitAcc_silent _ _ h).performs _
  case txEnd =>
    unfold encFinish txEnd at h
    exact writeThen_performs h (silent_next fun _ => ⟨rfl, rfl⟩)
  case flush =>
    unfold encFlush at h
    exact flushThen_performs h (silent_next fun _ => ⟨rfl, rfl⟩)
  case halt => cases h; exact performs_self _ _

/-! ### The decoder -/

theorem fetchHeader_performs {s t : State} (h : fetchHeader s = .next t) : Performs (some .inRead) s t := by
  unfold fetchHeader rxHdr at h
  refine readThen_performs h fun b u v hu => ?_
  dsimp only at hu
  repeat' split at hu
  all_goals cases hu
  all_goals exact ⟨rfl, rfl⟩

theorem litFill_performs {s t : State} (h : litFill s = .next t) : Performs (some .inRead) s t := by
  unfold litFill rxLitBody at h
  refine readThen_performs h fun b u v hu => ?_
  obtain ⟨-, hu⟩ := writeLbuf_next hu
  dsimp only at hu
  split at hu
  all_goals cases hu
  all_goals exact ⟨rfl, rfl⟩

theorem decTick_performs {s t : State} (h : decTick s = .next t) : Performs (decIssues s) s t := by
  cases hs : s.dState <;> cases hp : s.dPhase <;> simp only [decTick, decIssues, hs, hp] at h ⊢
  case readingHeader.fill | readingHeader.drain => exact fetchHeader_performs h
  case emittingLiteral.fill => exact litFill_performs h
  case emittingLiteral.drain =>
    unfold litDrain at h
    obtain ⟨b, hb, h⟩ := readLbuf_next h
    rw [hb]
    exact writeThen_performs h (silent_next sameTrace_drained)
  case emittingRun.fill =>
    unfold runFill rxRunVal at h
    exact readThen_performs h (fun _ => silent_next fun _ => ⟨rfl, rfl⟩)
  case emittingRun.drain =>
    unfold runDrain at h
    exact writeThen_performs h (silent_next sameTrace_drained)
  case done.fill | done.drain =>
    unfold endFlush at h
    exact flushThen_performs h (silent_next fun _ => ⟨rfl, rfl⟩)

/-- A step of the active unit performs the primitive the core issues, or none (R11, R12). -/
theorem unitTick_performs {s t : State} (hb : s.status = .busy) (h : unitTick s = .next t) :
    Performs s.issues s t := by
  have hbusy : s.busy = true := decide_eq_true hb
  cases hm : s.mode with
  | encode =>
    rw [show s.issues = encIssues s by simp [State.issues, hbusy, hm]]
    exact encTick_performs (by simpa [unitTick, hm] using h)
  | decode =>
    rw [show s.issues = decIssues s by simp [State.issues, hbusy, hm]]
    exact decTick_performs (by simpa [unitTick, hm] using h)

/-- Either command, taken outside BUSY, starts an invocation with no events (R22, R38). -/
theorem command_begins {d : Bool} {s t : State} (hb : s.status ≠ .busy)
    (h : (if d then execDecode s else execEncode s) = .next t) : t.status = .busy ∧ t.events = [] := by
  have hbusy : s.busy = false := decide_eq_false hb
  cases d with
  | false =>
    simp only [execEncode, hbusy] at h
    cases h
    exact ⟨rfl, rfl⟩
  | true =>
    simp only [execDecode, hbusy] at h
    cases h
    exact ⟨rfl, rfl⟩

/-- Settles O44: by what the control block decides; a running unit's step is `unitTick_performs`. -/
theorem oneEventPerStep : Obligations.OneEventPerStep := by
  intro s t h
  unfold microStep at h
  split at h <;> rename_i hturn <;> rw [hostTurn_eq] at hturn
  case h_1 =>
    cases h
    obtain ⟨-, ⟨-, rfl⟩ | ⟨-, -, rfl⟩⟩ := controlTurn_settled hturn <;> simp
  case h_2 =>
    obtain ⟨hidle, -, -, -, rfl⟩ := controlTurn_begin hturn
    obtain ⟨hbusy, hev⟩ := command_begins (by simpa using hidle) h
    exact .inr (.inr ⟨hidle, hbusy, hev⟩)
  case h_3 =>
    obtain ⟨hbusy, -, -, rfl⟩ := controlTurn_running hturn
    obtain ⟨-, hev⟩ := unitTick_performs (by simpa using hbusy) h
    rw [issues_deliver, deliver_events] at hev
    exact hev.imp id fun hprim => .inl ⟨hbusy, hprim⟩
  case h_4 => cases h

/-! ## Outcomes in sequence -/

/-- Goes on from a next state; a fault or a refusal stands. -/
def andThen (r : Res) (f : State → Res) : Res :=
  match r with
  | .next s => f s
  | .fault e => .fault e
  | .refused e => .refused e

theorem runWhile_succ_eq {go : State → Bool} {s : State} (tick : State → Res) (fuel : Nat) (hg : go s = true) :
    runWhile go tick (fuel + 1) s = andThen (tick s) (runWhile go tick fuel) := by
  simp only [runWhile, hg, if_true]
  rfl

theorem partialRecord_eq (s : State) : partialRecord s = andThen (fetchHeader s) finishRecord := rfl

/-! ## Outcomes of the spec's own steps -/

/-- A number of the spec's own steps has this outcome. -/
def Reaches (s : State) (r : Res) : Prop := ∃ k, microRun k s = r

theorem microRun_succ (k : Nat) (s : State) : microRun (k + 1) s = andThen (microStep s) (microRun k) :=
  runWhile_succ_eq microStep k rfl

theorem reaches_refl (s : State) : Reaches s (.next s) := ⟨0, rfl⟩

theorem reaches_andThen {s : State} {f : State → Res} (hf : ∀ u, microStep s = .next u → Reaches u (f u)) :
    Reaches s (andThen (microStep s) f) := by
  cases h : microStep s with
  | next u =>
    obtain ⟨k, hk⟩ := hf u h
    exact ⟨k + 1, by rw [microRun_succ, h]; exact hk⟩
  | fault e => exact ⟨1, by rw [microRun_succ, h]; rfl⟩
  | refused e => exact ⟨1, by rw [microRun_succ, h]; rfl⟩

/-- One step is a number of steps. -/
theorem reaches_microStep (s : State) : Reaches s (microStep s) := by
  have h := reaches_andThen fun u (_ : microStep s = .next u) => reaches_refl u
  rwa [show andThen (microStep s) .next = microStep s by cases microStep s <;> rfl] at h

theorem reaches_of_microStep {s u : State} {r : Res} (h : microStep s = .next u) (hr : Reaches u r) :
    Reaches s r := by
  obtain ⟨k, hk⟩ := hr
  exact ⟨k + 1, by rw [microRun_succ, h]; exact hk⟩

/-! ## A decode invocation with nothing more to be presented -/

theorem decoding_iff (s : State) : s.decoding = true ↔ s.status = .busy ∧ s.mode = .decode := decide_eq_true_iff

theorem midRecord_iff (s : State) : s.midRecord = true ↔ s.decoding = true ∧ s.dState ≠ .readingHeader := by
  simp [State.midRecord]

/-- A running decode invocation, every sample already presented: the spec's step is the decoder's. -/
def QuietDecode (s : State) : Prop := s.host = [] ∧ s.decoding = true

theorem microStep_quietDecode {s : State} (h : QuietDecode s) : microStep s = decTick s := by
  obtain ⟨hq, hd⟩ := h
  obtain ⟨hb, hm⟩ := (decoding_iff s).mp hd
  simp [microStep, hostTurn_quiet_busy hq hb, unitTick, hm]

theorem decTick_host {s t : State} (h : decTick s = .next t) : t.host = s.host := (decTick_performs h).1

/-- Going on inside a record is a number of the spec's steps. -/
theorem reaches_runWhile_midRecord (fuel : Nat) {s : State} (hq : s.host = []) :
    Reaches s (runWhile State.midRecord decTick fuel s) := by
  induction fuel generalizing s with
  | zero => exact reaches_refl s
  | succ f ih =>
    cases hm : s.midRecord with
    | false =>
      rw [runWhile_stopped decTick _ hm]
      exact reaches_refl s
    | true =>
      rw [runWhile_succ_eq decTick f hm, ← microStep_quietDecode ⟨hq, ((midRecord_iff s).mp hm).1⟩]
      refine reaches_andThen fun u hu => ih ?_
      rw [microStep_quietDecode ⟨hq, ((midRecord_iff s).mp hm).1⟩] at hu
      exact (decTick_host hu).trans hq

/-- The first step of an invocation may have taken a sample; what it leads to is that of the state after the sample. -/
theorem reaches_first_decTick {s s' : State} {f : State → Res} (h : microStep s = decTick s')
    (hf : ∀ u, decTick s' = .next u → Reaches u (f u)) : Reaches s (andThen (decTick s') f) := by
  rw [← h] at hf ⊢
  exact reaches_andThen hf

/-! ## The bytes of a record, read in one go or one by one -/

theorem leadingBytes_prefix {q : List InAnswer} {bs rest : List Byte} (h : leadingBytes q = bs ++ rest) :
    ∃ q', q = bs.map .byte ++ q' := by
  induction bs generalizing q with
  | nil => exact ⟨q, rfl⟩
  | cons b bs ih =>
    match q, h with
    | .byte c :: tail, h =>
      obtain ⟨hc, htail⟩ := List.cons.inj h
      obtain ⟨q', rfl⟩ := ih htail
      exact ⟨q', by rw [hc]; rfl⟩

/-- The reads of bytes that stand on the input stream. -/
theorem takeBytes_bytes (bs : List Byte) {s : State} {q : List InAnswer} (h : s.inQueue = bs.map .byte ++ q) :
    takeBytes bs.length s = { s with inQueue := q, events := s.events ++ bs.map readEvent } := by
  induction bs generalizing s with
  | nil =>
    obtain rfl : s.inQueue = q := h
    simp [takeBytes]
  | cons b bs ih =>
    rw [List.length_cons, takeBytes]
    simp only [h, List.map_cons, List.cons_append]
    rw [ih rfl]
    simp [State.afterRead, readEvent]

/-- What the decoder reads from bytes: END, RUN with its value, or LIT with its body (R72, R67 to R69). -/
theorem decodeRecord_ok {bytes rest : List Byte} {i : Instr} (h : decodeRecord bytes = .ok (i, rest)) :
    (∃ h, bytes = [h] ++ rest ∧ hdrLen h = 0 ∧ i = .endRec (hdrFlag h)) ∨
    (∃ h v, bytes = [h, v] ++ rest ∧ hdrLen h ≠ 0 ∧ hdrFlag h = false ∧ i = .run (hdrLen h) v) ∨
    (∃ h body, bytes = (h :: body) ++ rest ∧ hdrLen h ≠ 0 ∧ hdrFlag h = true ∧ body.length = (hdrLen h).toNat ∧
      i = .lit body) := by
  cases bytes with
  | nil => cases h
  | cons b bs =>
    unfold decodeRecord classify at h
    by_cases h0 : hdrLen b = 0
    · simp only [h0, if_true] at h
      cases h
      exact .inl ⟨b, rfl, h0, rfl⟩
    · cases hf : hdrFlag b with
      | false =>
        simp only [h0, hf, if_false] at h
        cases bs with
        | nil => cases h
        | cons v bs =>
          cases h
          exact .inr (.inl ⟨b, v, rfl, h0, hf, rfl⟩)
      | true =>
        simp only [h0, hf, if_false, if_true] at h
        split at h
        · cases h
          exact .inr (.inr ⟨b, _, by simp, h0, hf, List.length_take_of_le ‹_›, rfl⟩)
        · cases h

theorem readThen_byte {s : State} {b : Byte} {q : List InAnswer} (c : ErrCause) (found : Byte → State → Res)
    (h : s.inQueue = .byte b :: q) : readThen c s found = found b (s.afterRead (.byte b) q) := by
  simp [readThen, inRead, h]

/-! ### The reads of the three records (R108 to R110) -/

theorem fetchHeader_ending {s : State} {h : Byte} {q : List InAnswer} (hq : s.inQueue = .byte h :: q)
    (h0 : hdrLen h = 0) : fetchHeader s = .next (latchEnd (s.afterRead (.byte h) q)) := by
  rw [fetchHeader, rxHdr, readThen_byte _ _ hq]
  refine (if_pos h0).trans ?_
  rw [latchEnd, h0]

theorem fetchHeader_run {s : State} {h : Byte} {q : List InAnswer} (hq : s.inQueue = .byte h :: q)
    (h0 : hdrLen h ≠ 0) (hf : hdrFlag h = false) :
    fetchHeader s =
      .next { s.afterRead (.byte h) q with len := hdrLen h, dState := .emittingRun, dPhase := .fill } := by
  rw [fetchHeader, rxHdr, readThen_byte _ _ hq]
  exact (if_neg h0).trans (if_neg (Bool.not_eq_true _ ▸ hf))

theorem fetchHeader_literal {s : State} {h : Byte} {q : List InAnswer} (hq : s.inQueue = .byte h :: q)
    (h0 : hdrLen h ≠ 0) (hf : hdrFlag h = true) :
    fetchHeader s =
      .next { s.afterRead (.byte h) q with
        len := hdrLen h, dState := .emittingLiteral, dPhase := .fill, k := 0 } := by
  rw [fetchHeader, rxHdr, readThen_byte _ _ hq]
  exact (if_neg h0).trans (if_pos hf)

theorem runFill_byte {s : State} {v : Byte} {q : List InAnswer} (hq : s.inQueue = .byte v :: q) :
    runFill s = .next { s.afterRead (.byte v) q with val := v, k := 0, dPhase := .drain } := by
  rw [runFill, rxRunVal, readThen_byte _ _ hq]

theorem litFill_last {s : State} {b : Byte} {q : List InAnswer} (hq : s.inQueue = .byte b :: q)
    (hk : s.k.toNat < Config.lbufSize) (hl : s.k + 1 = s.len) :
    litFill s = .next
      { s.afterRead (.byte b) q with lbuf := writeCell s.lbuf s.k.toNat b, k := 0, dPhase := .drain } := by
  rw [litFill, rxLitBody, readThen_byte _ _ hq, writeLbuf, State.afterRead_k, if_pos hk]
  exact if_pos hl

theorem litFill_more {s : State} {b : Byte} {q : List InAnswer} (hq : s.inQueue = .byte b :: q)
    (hk : s.k.toNat < Config.lbufSize) (hl : s.k + 1 ≠ s.len) :
    litFill s = .next { s.afterRead (.byte b) q with lbuf := writeCell s.lbuf s.k.toNat b, k := s.k + 1 } := by
  rw [litFill, rxLitBody, readThen_byte _ _ hq, writeLbuf, State.afterRead_k, if_pos hk]
  exact if_neg hl

/-- LIT's body in the line buffer and the decoder ready to drain it, the body's bytes read. -/
def bodyHeld (body : List Byte) (q : List InAnswer) (s : State) : State :=
  { s with
    inQueue := q
    events := s.events ++ body.map readEvent
    lbuf := writeCells s.lbuf s.k.toNat body
    k := 0
    dPhase := .drain }

theorem bodyHeld_cons (b : Byte) (bs : List Byte) (q' q : List InAnswer) (s : State)
    (hk : (s.k + 1).toNat = s.k.toNat + 1) :
    bodyHeld (b :: bs) q s =
      bodyHeld bs q { s.afterRead (.byte b) q' with lbuf := writeCell s.lbuf s.k.toNat b, k := s.k + 1 } := by
  simp only [bodyHeld, writeCells, hk, State.afterRead, readEvent, List.map_cons, List.append_assoc, List.cons_append,
    List.nil_append]

theorem toNat_succ_of_lt {k : Len} (h : k.toNat < Config.lbufSize) : (k + 1).toNat = k.toNat + 1 :=
  Nat.mod_eq_of_lt (Nat.succ_lt_succ h)

/-- While body bytes are to come, K is an index of LBUF (R37). -/
theorem fill_index_lt {k len : Len} {m : Nat} (h : k.toNat + (m + 1) = len.toNat) : k.toNat < Config.lbufSize := by
  have hlen : len.toNat < 128 := len.isLt
  exact (show k.toNat < 127 by omega)

theorem microStep_litFill {s : State} (hs : QuietDecode s) (hd : s.dState = .emittingLiteral) (hp : s.dPhase = .fill) :
    microStep s = litFill s := by
  rw [microStep_quietDecode hs]
  simp only [decTick, hd, hp]

/-- The fill of a run, its one step. -/
theorem reaches_runFill {r : Res} {q : List InAnswer} (v : Byte) {s : State} (hs : QuietDecode s)
    (hd : s.dState = .emittingRun) (hp : s.dPhase = .fill) (hq : s.inQueue = .byte v :: q)
    (hr : Reaches { s.afterRead (.byte v) q with val := v, k := 0, dPhase := .drain } r) : Reaches s r := by
  have hstep : microStep s = runFill s := by
    rw [microStep_quietDecode hs]
    simp only [decTick, hd, hp]
  exact reaches_of_microStep (hstep.trans (runFill_byte hq)) hr

/-- The fill of a literal's body, byte after byte. -/
theorem reaches_litFill {r : Res} {q : List InAnswer} (b : Byte) (bs : List Byte) {s : State} (hs : QuietDecode s)
    (hd : s.dState = .emittingLiteral) (hp : s.dPhase = .fill) (hq : s.inQueue = (b :: bs).map .byte ++ q)
    (hk : s.k.toNat + (bs.length + 1) = s.len.toNat) (hr : Reaches (bodyHeld (b :: bs) q s) r) : Reaches s r := by
  induction bs generalizing b s with
  | nil =>
    have hlast : s.k + 1 = s.len := BitVec.eq_of_toNat_eq ((toNat_succ_of_lt (fill_index_lt hk)).trans hk)
    exact reaches_of_microStep ((microStep_litFill hs hd hp).trans (litFill_last hq (fill_index_lt hk) hlast)) hr
  | cons c cs ih =>
    have hlt := fill_index_lt hk
    have hsucc := toNat_succ_of_lt hlt
    have hk' : (s.k + 1).toNat + (cs.length + 1) = s.len.toNat := by rw [List.length_cons] at hk; omega
    have hmore : s.k + 1 ≠ s.len := fun e => by rw [e] at hk'; omega
    refine reaches_of_microStep ((microStep_litFill hs hd hp).trans (litFill_more hq hlt hmore)) ?_
    refine ih c hs hd hp rfl hk' ?_
    rwa [bodyHeld_cons b (c :: cs) _ q s hsucc] at hr

/-! ## One machine step of a decode invocation -/

/-- RUN's two bytes read one by one leave the decoder as RUN's latch does (R109). -/
theorem filled_eq_latchRun (h v : Byte) (q' q : List InAnswer) (s : State) :
    { State.afterRead { s.afterRead (.byte h) q' with len := hdrLen h, dState := .emittingRun, dPhase := .fill }
        (.byte v) q with val := v, k := 0, dPhase := .drain } =
      latchRun (hdrLen h) v { s with inQueue := q, events := s.events ++ [h, v].map readEvent } := by
  simp only [latchRun, State.afterRead, List.append_assoc]
  rfl

/-- LIT's bytes read one by one leave the decoder as LIT's latch does (R110). -/
theorem bodyHeld_eq_latchLit (h : Byte) (q' q : List InAnswer) (body : List Byte) (s : State)
    (hlen : BitVec.ofNat 7 body.length = hdrLen h) :
    bodyHeld body q
        { s.afterRead (.byte h) q' with len := hdrLen h, dState := .emittingLiteral, dPhase := .fill, k := 0 } =
      latchLit body { s with inQueue := q, events := s.events ++ (h :: body).map readEvent } := by
  simp only [latchLit, bodyHeld, State.afterRead, hlen, List.append_assoc]
  rfl

theorem reaches_execEnd (flag : Bool) {s : State} (hs : QuietDecode s) :
    Reaches (latchEnd s) (exec (.endRec flag) s) := by
  have hexec : exec (.endRec flag) s = endFlush (latchEnd s) := if_pos hs.2
  have hstep : microStep (latchEnd s) = endFlush (latchEnd s) := microStep_quietDecode (s := latchEnd s) hs
  rw [hexec, ← hstep]
  exact reaches_microStep _

theorem reaches_execRun (count : Len) (value : Byte) {s : State} (hs : QuietDecode s) :
    Reaches (latchRun count value s) (exec (.run count value) s) := by
  have hexec : exec (.run count value) s = runWhile State.midRecord decTick count.toNat (latchRun count value s) :=
    if_pos hs.2
  rw [hexec]
  exact reaches_runWhile_midRecord _ hs.1

theorem reaches_execLit (body : List Byte) {s : State} (hs : QuietDecode s) :
    Reaches (latchLit body s) (exec (.lit body) s) := by
  have hexec : exec (.lit body) s = runWhile State.midRecord decTick body.length (latchLit body s) := if_pos hs.2
  rw [hexec]
  exact reaches_runWhile_midRecord _ hs.1

section
variable {s s' : State} (hstep : microStep s = decTick s') (hs : QuietDecode s')
include hstep hs

/-- The steps of a whole record: its bytes read one by one and its execution, or all at once. -/
theorem reaches_exec_record {i : Instr} {rest : List Byte} (hd : s'.dState = .readingHeader)
    (hrec : decodeRecord (leadingBytes s'.inQueue) = .ok (i, rest)) :
    Reaches s (exec i (takeBytes (recordLength i) s')) := by
  have hhdr : microStep s = fetchHeader s' := by
    rw [hstep]
    simp only [decTick, hd]
  rcases decodeRecord_ok hrec with
    ⟨h, hb, h0, rfl⟩ | ⟨h, v, hb, h0, hf, rfl⟩ | ⟨h, body, hb, h0, hf, hl, rfl⟩
  all_goals obtain ⟨q, hq⟩ := leadingBytes_prefix hb
  case inl =>
    rw [show recordLength (.endRec _) = [h].length from rfl, takeBytes_bytes [h] hq]
    refine reaches_of_microStep (hhdr.trans (fetchHeader_ending hq h0)) ?_
    exact reaches_execEnd _ (s := s'.afterRead (.byte h) q) hs
  case inr.inl =>
    rw [show recordLength (.run _ _) = [h, v].length from rfl, takeBytes_bytes [h, v] hq]
    refine reaches_of_microStep (hhdr.trans (fetchHeader_run hq h0 hf)) ?_
    refine reaches_runFill v hs rfl rfl rfl ?_
    rw [filled_eq_latchRun]
    exact reaches_execRun (hdrLen h) v hs
  case inr.inr =>
    rw [show recordLength (.lit body) = (h :: body).length from Nat.add_comm _ _, takeBytes_bytes (h :: body) hq]
    refine reaches_of_microStep (hhdr.trans (fetchHeader_literal hq h0 hf)) ?_
    have hlen : BitVec.ofNat 7 body.length = hdrLen h := by rw [hl, BitVec.ofNat_toNat, BitVec.setWidth_eq]
    cases body with
    | nil => exact absurd hlen.symm h0
    | cons b bs =>
      refine reaches_litFill b bs hs rfl rfl rfl ((Nat.zero_add _).trans hl) ?_
      rw [bodyHeld_eq_latchLit h _ q _ s' hlen]
      exact reaches_execLit (b :: bs) hs

/-- Where no whole record stands on the input stream, or inside a record: step after step. -/
theorem reaches_partialRecord (hd : s'.dState = .readingHeader) : Reaches s (partialRecord s') := by
  have htick : fetchHeader s' = decTick s' := by simp only [decTick, hd]
  rw [partialRecord_eq, htick]
  exact reaches_first_decTick hstep fun u hu => reaches_runWhile_midRecord _ ((decTick_host hu).trans hs.1)

theorem reaches_finishRecord (hd : s'.dState ≠ .readingHeader) : Reaches s (finishRecord s') := by
  rw [finishRecord, runWhile_succ_eq decTick 255 ((midRecord_iff s').mpr ⟨hs.2, hd⟩)]
  exact reaches_first_decTick hstep fun u hu => reaches_runWhile_midRecord _ ((decTick_host hu).trans hs.1)

end

/-- What the machine step does while a decode invocation runs, the control block's turn taken. -/
theorem reaches_step_decode {s s' : State} (hturn : hostTurn s = .running s') (hs : QuietDecode s') :
    Reaches s (step s) := by
  obtain ⟨-, hm⟩ := (decoding_iff s').mp hs.2
  have hstep : microStep s = decTick s' := by simp only [microStep, hturn, unitTick, hm]
  have hact : nextAction s = decodeAction s' := by simp only [nextAction, hturn, hm]
  unfold step
  rw [hact, decodeAction]
  by_cases hd : s'.dState = .readingHeader
  · rw [if_pos hd]
    cases hrec : decodeRecord (leadingBytes s'.inQueue) with
    | ok found => exact reaches_exec_record hstep hs hd hrec
    | error e => exact reaches_partialRecord hstep hs hd
  · rw [if_neg hd]
    exact reaches_finishRecord hstep hs hd

/-- Outside a running decode invocation the machine step is one of the spec's steps. -/
theorem step_eq_microStep {s : State} (h : ∀ s', hostTurn s = .running s' → s'.mode = .encode) :
    step s = microStep s := by
  unfold step nextAction microStep
  cases hturn : hostTurn s with
  | settled s' => rfl
  | begin d s' => cases d <;> rfl
  | running s' => simp only [h s' hturn, unitTick]
  | refuse r => rfl

/-- Settles O45: one of the spec's steps, except in a running decode invocation; there the record that stands on the
input stream is as many steps as its bytes and its execution take. -/
theorem stepIsMicroSteps : Obligations.StepIsMicroSteps := by
  intro s hlen
  by_cases h : ∃ s', hostTurn s = .running s' ∧ s'.mode = .decode
  · obtain ⟨s', hturn, hm⟩ := h
    refine reaches_step_decode hturn ?_
    rw [hostTurn_eq] at hturn
    obtain ⟨hbusy, -, -, rfl⟩ := controlTurn_running hturn
    refine ⟨?_, (decoding_iff _).mpr ⟨by simpa using hbusy, hm⟩⟩
    rw [deliver_host]
    exact List.eq_nil_of_length_eq_zero (by simp only [List.length_tail]; omega)
  · rw [step_eq_microStep fun s' hturn => ?_]
    · exact reaches_microStep s
    · cases hm : s'.mode with
      | encode => rfl
      | decode => exact absurd ⟨s', hturn, hm⟩ h

end Sys2Proof.Machine

/-! PROOFS of the family 10_state.md. The two commands and taking `start` (O9 to O11), reset and the outputs (O39, O42,
O51); what a step of a unit does to the control registers and the collaborator's side, said once, and from it who writes
which element (O50), the life of STATUS (O43) and ERRKIND's width (O49); two invocations side by side, of which neither
shows what the units held before (O59); a record executed to its end (O21). -/

namespace Sys2Proof.Machine

/-! ## The commands -/

/-- Settles O9: outside BUSY ENCODE is not ignored. -/
theorem encodeStarts : Obligations.EncodeStarts := by
  intro s hb
  exact if_neg fun h => hb (of_decide_eq_true h)

/-- Settles O10: outside BUSY DECODE is not ignored. -/
theorem decodeStarts : Obligations.DecodeStarts := by
  intro s hb
  exact if_neg fun h => hb (of_decide_eq_true h)

/-- Settles O39, by evaluating the state after reset. -/
theorem resetValues : Obligations.ResetValues := by
  unfold Obligations.ResetValues
  decide

/-- Settles O51, by evaluating the invariant at the state after reset. -/
theorem invariantAtReset : Obligations.InvariantAtReset := by
  unfold Obligations.InvariantAtReset
  decide

/-- Settles O42: STATUS has four values. -/
theorem statusOutputs : Obligations.StatusOutputs := by
  intro s
  unfold State.busy State.done State.failed
  generalize s.status = c
  cases c <;> decide

/-- Outside an invocation `start` without `rst` is taken (R22). -/
theorem hostTurn_start {s : State} {p : HostInput} {ps : List HostInput} (hh : s.host = p :: ps)
    (hb : s.status ≠ .busy) (hr : p.rst = false) (hs : p.start = true) :
    hostTurn s = .begin p.decompress (deliver p { s with host := ps }) := by
  have hbusy : State.busy { s with host := ps } = false := decide_eq_false hb
  rw [hostTurn_eq, hh]
  exact (if_neg (Bool.not_eq_true _ ▸ hbusy)).trans ((if_neg (by simp [hr])).trans (if_pos hs))

/-- While BUSY `start` and `decompress` are ignored (R179). -/
theorem hostTurn_busy_ignores_start {s : State} (hb : s.status = .busy) (p : HostInput) (ps : List HostInput)
    (a b : Bool) :
    hostTurn { s with host := p :: ps } = hostTurn { s with host := { p with start := a, decompress := b } :: ps } := by
  have hbusy : State.busy { s with host := ps } = true := decide_eq_true hb
  have turn (p : HostInput) : hostTurn { s with host := p :: ps } =
      if p.rst then .refuse .resetWhileBusy
      else if p.fresh then .refuse .streamsReplaced
      else .running (deliver p { s with host := ps }) := if_pos hbusy
  rw [turn, turn]
  rfl

/-- Settles O11: the control block's turn, with `start` high and then while BUSY. -/
theorem startIsTaken : Obligations.StartIsTaken := by
  refine ⟨fun s p ps hh hb hr hs => ?_, fun s p ps a b hb => ?_, fun s hb => ⟨if_pos ?_, if_pos ?_⟩⟩
  · have hstep : step s = exec (decodeCommand p.decompress) (deliver p { s with host := ps }) := by
      simp only [step, nextAction, hostTurn_start hh hb hr hs]
    have hb' : (deliver p { s with host := ps }).status ≠ .busy := by simpa using hb
    cases hd : p.decompress with
    | false => exact ⟨_, (hd ▸ hstep).trans (encodeStarts _ hb'), rfl, rfl, rfl, rfl, rfl, by simp, by simp⟩
    | true => exact ⟨_, (hd ▸ hstep).trans (decodeStarts _ hb'), rfl, rfl, rfl, rfl, rfl, by simp, by simp⟩
  · simp only [step, nextAction, hostTurn_busy_ignores_start hb p ps a b]
  all_goals exact decide_eq_true hb

/-! ## What a step of a unit does to the control registers and the collaborator's side -/

/-- What one step of the active unit leaves there, the unit's own registers and buffers as they were: nothing (it waits or
is silent), an answer consumed, or an answer consumed and the invocation ended (R11, R142, R156). -/
inductive Effect (s : State) : State → Prop where
  | silent : Effect s s
  | read (a : InAnswer) (q : List InAnswer) : s.inQueue = a :: q → Effect s (s.afterRead a q)
  | eofRaised (c : ErrCause) (q : List InAnswer) : s.inQueue = .eos :: q →
      Effect s ((s.afterRead .eos q).raise c .unexpectedEof)
  | readFailed (k : IoErrorKind) (q : List InAnswer) : s.inQueue = .fail k :: q →
      Effect s ((s.afterRead (.fail k) q).raise .rdFail (.io k))
  | wrote (b : Byte) (q : List OutAnswer) : s.outQueue = .ok :: q → Effect s (s.afterWrite b .ok q)
  | writeFailed (b : Byte) (k : IoErrorKind) (q : List OutAnswer) : s.outQueue = .fail k :: q →
      Effect s ((s.afterWrite b (.fail k) q).raise .wrFail (.io k))
  | flushed (q : List OutAnswer) : s.outQueue = .ok :: q → Effect s { s.afterFlush .ok q with status := .ok }
  | flushFailed (k : IoErrorKind) (q : List OutAnswer) : s.outQueue = .fail k :: q →
      Effect s ((s.afterFlush (.fail k) q).raise .flFail (.io k))

/-- `s` with the encoder's working registers, all but IBUF and N, blanked. -/
def blankEncRegs (s : State) : State :=
  { s with i := 0, runLen := 0, litStart := 0, litLen := 0, eState := .halt, txk := 0 }

/-- `s` with all elements of ENC and FRM blanked. -/
def blankEnc (s : State) : State := { blankEncRegs s with ibuf := [], n := 0 }

/-- `s` with the elements of DEC blanked. -/
def blankDec (s : State) : State :=
  { s with dState := .readingHeader, dPhase := .fill, len := 0, val := 0, lbuf := [], k := 0 }

/-- `s` with the elements of both units blanked: the control registers, the collaborator's side and the parameters. -/
def blankUnits (s : State) : State := blankDec (blankEnc s)

/-- `s` with the control registers, but for MODE, and the collaborator's side, but for the samples, blanked. -/
def blankIo (s : State) : State :=
  { s with
    status := .idle, errCause := .noCause, errKind := 0, events := [], inQueue := [], outQueue := [], outBuffer := []
    sink := [], sinkLost := false }

theorem Effect.blankIo_eq {s u : State} (h : Effect s u) : blankIo u = blankIo s := by cases h <;> rfl

/-! In these three, `view` is what is looked at; the rest of the step must leave it as the effect does. -/

theorem readThen_effect {α : Type} {view : State → α} {s t : State} {c : ErrCause} {found : Byte → State → Res}
    (h : readThen c s found = .next t) (hf : ∀ b u, found b u = .next t → view t = view u) :
    ∃ u, Effect s u ∧ view t = view u := by
  rcases readThen_next h with ⟨-, rfl⟩ | ⟨b, q, hq, h⟩ | ⟨q, hq, rfl⟩ | ⟨k, q, hq, rfl⟩
  · exact ⟨_, .silent, rfl⟩
  · exact ⟨_, .read _ q hq, hf b _ h⟩
  · exact ⟨_, .eofRaised c q hq, rfl⟩
  · exact ⟨_, .readFailed k q hq, rfl⟩

theorem writeThen_effect {α : Type} {view : State → α} {s t : State} {b : Byte} {done : State → Res}
    (h : writeThen b s done = .next t) (hd : ∀ u, done u = .next t → view t = view u) :
    ∃ u, Effect s u ∧ view t = view u := by
  rcases writeThen_next h with ⟨-, rfl⟩ | ⟨q, hq, h⟩ | ⟨k, q, hq, rfl⟩
  · exact ⟨_, .silent, rfl⟩
  · exact ⟨_, .wrote b q hq, hd _ h⟩
  · exact ⟨_, .writeFailed b k q hq, rfl⟩

theorem flushThen_effect {α : Type} {view : State → α} {s t : State} {done : State → Res}
    (h : flushThen s done = .next t) (hd : ∀ u, done u = .next t → view t = view { u with status := .ok }) :
    ∃ u, Effect s u ∧ view t = view u := by
  rcases flushThen_next h with ⟨-, rfl⟩ | ⟨q, hq, h⟩ | ⟨k, q, hq, rfl⟩
  · exact ⟨_, .silent, rfl⟩
  · exact ⟨_, .flushed q hq, hd _ h⟩
  · exact ⟨_, .flushFailed k q hq, rfl⟩

theorem encLoad_effect {s t : State} (h : encLoad s = .next t) : ∃ u, Effect s u ∧ blankEnc t = blankEnc u := by
  rcases inRead_next h with ⟨-, rfl⟩ | ⟨a, q, hq, h⟩
  · exact ⟨_, .silent, rfl⟩
  · cases a with
    | byte b =>
      dsimp only at h
      split at h
      · cases h
      · obtain ⟨-, h⟩ := writeIbuf_next h
        cases h
        exact ⟨_, .read _ q hq, rfl⟩
    | eos =>
      cases h
      exact ⟨_, .read _ q hq, rfl⟩
    | fail k =>
      cases h
      exact ⟨_, .readFailed k q hq, rfl⟩

theorem encScan_effect {s t : State} (h : encScan s = .next t) : blankEncRegs t = blankEncRegs s := by
  unfold encScan at h
  repeat' split at h
  all_goals cases h
  all_goals rfl

theorem encLitAcc_effect {s t : State} (h : encLitAcc s = .next t) : blankEncRegs t = blankEncRegs s := by
  unfold encLitAcc at h
  repeat' split at h
  all_goals cases h
  all_goals rfl

theorem encEmitRun_effect {s t : State} (h : encEmitRun s = .next t) :
    ∃ u, Effect s u ∧ blankEncRegs t = blankEncRegs u := by
  unfold encEmitRun txRun at h
  split at h
  · exact writeThen_effect h fun u hu => by cases hu; rfl
  · obtain ⟨b, -, h⟩ := readIbuf_next h
    exact writeThen_effect h fun u hu => by cases hu; rfl

theorem encEmitLit_effect {s t : State} (h : encEmitLit s = .next t) :
    ∃ u, Effect s u ∧ blankEncRegs t = blankEncRegs u := by
  unfold encEmitLit txLit at h
  split at h
  · exact writeThen_effect h fun u hu => by cases hu; rfl
  · obtain ⟨b, -, h⟩ := readIbuf_next h
    refine writeThen_effect h fun u hu => ?_
    dsimp only at hu
    split at hu
    all_goals cases hu
    all_goals rfl

/-- Past the load phase a step of ENC writes neither IBUF nor N (R26, R27). -/
theorem encTick_effect_of_loaded {s t : State} (hs : s.eState ≠ .load) (h : encTick s = .next t) :
    ∃ u, Effect s u ∧ blankEncRegs t = blankEncRegs u := by
  cases he : s.eState <;> simp only [encTick, he] at h
  case load => exact absurd he hs
  case scan => exact ⟨s, .silent, encScan_effect h⟩
  case litAcc => exact ⟨s, .silent, encLitAcc_effect h⟩
  case txRun => exact encEmitRun_effect h
  case txLit => exact encEmitLit_effect h
  case txEnd => exact writeThen_effect (show txEnd s _ = _ from h) fun u hu => by cases hu; rfl
  case flush => exact flushThen_effect h fun u hu => by cases hu; rfl
  case halt =>
    cases h
    exact ⟨s, .silent, rfl⟩

theorem encTick_effect {s t : State} (h : encTick s = .next t) : ∃ u, Effect s u ∧ blankEnc t = blankEnc u := by
  by_cases he : s.eState = .load
  · exact encLoad_effect (by simpa only [encTick, he] using h)
  · obtain ⟨u, hu, hb⟩ := encTick_effect_of_loaded he h
    exact ⟨u, hu, congrArg (fun r : State => { r with ibuf := [], n := 0 }) hb⟩

theorem fetchHeader_effect {s t : State} (h : fetchHeader s = .next t) :
    ∃ u, Effect s u ∧ blankDec t = blankDec u := by
  unfold fetchHeader rxHdr at h
  refine readThen_effect h fun b u hu => ?_
  dsimp only at hu
  repeat' split at hu
  all_goals cases hu
  all_goals rfl

theorem litFill_effect {s t : State} (h : litFill s = .next t) : ∃ u, Effect s u ∧ blankDec t = blankDec u := by
  unfold litFill rxLitBody at h
  refine readThen_effect h fun b u hu => ?_
  obtain ⟨-, hu⟩ := writeLbuf_next hu
  dsimp only at hu
  split at hu
  all_goals cases hu
  all_goals rfl

theorem blankDec_drained (s : State) : blankDec (drained s) = blankDec s := by
  unfold drained
  split <;> rfl

theorem decTick_effect {s t : State} (h : decTick s = .next t) : ∃ u, Effect s u ∧ blankDec t = blankDec u := by
  cases hs : s.dState <;> cases hp : s.dPhase <;> simp only [decTick, hs, hp] at h
  case readingHeader.fill | readingHeader.drain => exact fetchHeader_effect h
  case emittingLiteral.fill => exact litFill_effect h
  case emittingLiteral.drain =>
    obtain ⟨b, -, h⟩ := readLbuf_next h
    exact writeThen_effect h fun u hu => by cases hu; exact blankDec_drained u
  case emittingRun.fill => exact readThen_effect (show rxRunVal s _ = _ from h) fun b u hu => by cases hu; rfl
  case emittingRun.drain => exact writeThen_effect h fun u hu => by cases hu; exact blankDec_drained u
  case done.fill | done.drain => exact flushThen_effect h fun u hu => by cases hu; rfl

/-- A step of the active unit, but for the registers and buffers of the two units. -/
theorem unitTick_effect {s t : State} (h : unitTick s = .next t) : ∃ u, Effect s u ∧ blankUnits t = blankUnits u := by
  unfold unitTick at h
  split at h
  · obtain ⟨u, hu, hb⟩ := encTick_effect h
    exact ⟨u, hu, congrArg blankDec hb⟩
  · obtain ⟨u, hu, hb⟩ := decTick_effect h
    exact ⟨u, hu, congrArg blankEnc hb⟩

/-! ### What a unit leaves alone (R17) -/

theorem encTick_frame {s t : State} (h : encTick s = .next t) : blankIo (blankEnc t) = blankIo (blankEnc s) := by
  obtain ⟨u, hu, hb⟩ := encTick_effect h
  exact (congrArg blankIo hb).trans (congrArg blankEnc hu.blankIo_eq)

theorem encTick_frame_of_loaded {s t : State} (hs : s.eState ≠ .load) (h : encTick s = .next t) :
    blankIo (blankEncRegs t) = blankIo (blankEncRegs s) := by
  obtain ⟨u, hu, hb⟩ := encTick_effect_of_loaded hs h
  exact (congrArg blankIo hb).trans (congrArg blankEncRegs hu.blankIo_eq)

theorem decTick_frame {s t : State} (h : decTick s = .next t) : blankIo (blankDec t) = blankIo (blankDec s) := by
  obtain ⟨u, hu, hb⟩ := decTick_effect h
  exact (congrArg blankIo hb).trans (congrArg blankDec hu.blankIo_eq)

/-- Settles O50: from what a step of each unit leaves alone. -/
theorem unitsAreSeparate : Obligations.UnitsAreSeparate := by
  intro s t h
  unfold unitTick at h
  split at h <;> rename_i hm
  case h_1 =>
    have hf := encTick_frame h
    simp only [blankIo, blankEnc, blankEncRegs, State.mk.injEq] at hf
    refine ⟨by simp only [hf], by simp only [hf], by simp only [hf], by simp [hm], fun _ => by simp [hf],
      fun _ he => ?_⟩
    have hl := encTick_frame_of_loaded he h
    simp only [blankIo, blankEncRegs, State.mk.injEq] at hl
    simp [hl]
  case h_2 =>
    have hf := decTick_frame h
    simp only [blankIo, blankDec, State.mk.injEq] at hf
    exact ⟨by simp only [hf], by simp only [hf], by simp only [hf], fun _ => by simp [hf], by simp [hm], by simp [hm]⟩

/-! ### Who writes STATUS (R23) -/

theorem Effect.status {s u : State} (h : Effect s u) :
    u.status = s.status ∨ (u.status = .ok ∧ u.events = s.events ++ [.flush .ok]) ∨
    (u.status = .fail ∧ ∃ e, u.events = s.events ++ [e] ∧ e.isFailing = true) := by
  cases h with
  | silent | read | wrote => exact .inl rfl
  | flushed => exact .inr (.inl ⟨rfl, rfl⟩)
  | eofRaised | readFailed | writeFailed | flushFailed => exact .inr (.inr ⟨rfl, _, rfl, rfl⟩)

/-- A step of a unit leaves STATUS, ends the invocation by a flush answered `Ok`, or fails by a failing answer. -/
theorem unitTick_status {s t : State} (h : unitTick s = .next t) :
    t.status = s.status ∨ (t.status = .ok ∧ t.events = s.events ++ [.flush .ok]) ∨
    (t.status = .fail ∧ ∃ e, t.events = s.events ++ [e] ∧ e.isFailing = true) := by
  obtain ⟨u, hu, hb⟩ := unitTick_effect h
  have hstatus : t.status = u.status := (congrArg State.status hb :)
  have hevents : t.events = u.events := (congrArg State.events hb :)
  rw [hstatus, hevents]
  exact hu.status

/-- A pin found high at a step belongs to a sample presented there. -/
theorem presented_of_high {pin : HostInput → Bool} {s : State} (hlow : pin HostInput.low = false)
    (h : pin (s.host.headD HostInput.low) = true) : ∃ p ps, s.host = p :: ps ∧ pin p = true := by
  cases hh : s.host with
  | nil =>
    rw [hh] at h
    exact absurd (hlow.symm.trans h) Bool.false_ne_true
  | cons p ps => exact ⟨p, ps, rfl, by rwa [hh] at h⟩

/-- Settles O43: by what the control block decides; a running unit's part is `unitTick_status`. -/
theorem statusLifeCycle : Obligations.StatusLifeCycle := by
  intro s t h
  unfold microStep at h
  split at h <;> rename_i hturn <;> rw [hostTurn_eq] at hturn
  case h_1 =>
    cases h
    obtain ⟨hidle, ⟨hrst, rfl⟩ | ⟨-, -, rfl⟩⟩ := controlTurn_settled hturn
    · exact .inr (.inr (.inr (.inr ⟨hidle, rfl, presented_of_high (pin := HostInput.rst) rfl hrst⟩)))
    · exact .inl (by simp)
  case h_2 =>
    obtain ⟨hidle, hrst, hstart, -, rfl⟩ := controlTurn_begin hturn
    obtain ⟨hbusy, -⟩ := command_begins (by simpa using hidle) h
    obtain ⟨p, ps, hh, hp⟩ := presented_of_high (pin := HostInput.start) rfl hstart
    exact .inr (.inl ⟨hidle, hbusy, p, ps, hh, hp, by rwa [hh] at hrst⟩)
  case h_3 =>
    obtain ⟨hbusy, -, -, rfl⟩ := controlTurn_running hturn
    rcases unitTick_status h with hend | hend | hend
    · exact .inl (by simpa using hend)
    · exact .inr (.inr (.inl ⟨hbusy, by simpa using hend⟩))
    · exact .inr (.inr (.inr (.inl ⟨hbusy, by simpa using hend⟩)))
  case h_4 => cases h

/-! ## What a machine step can be -/

theorem isRecord_of_decodeRecord {bytes rest : List Byte} {i : Instr} (h : decodeRecord bytes = .ok (i, rest)) :
    i.isRecord = true := by
  rcases decodeRecord_ok h with ⟨h, -, -, rfl⟩ | ⟨h, v, -, -, -, rfl⟩ | ⟨h, body, -, -, -, -, rfl⟩ <;> rfl

/-- A command taken outside BUSY is taking `start` in its mode, and then ENC.START or DEC.START (R22). -/
theorem exec_decodeCommand (d : Bool) {s : State} (hb : s.status ≠ .busy) :
    exec (decodeCommand d) s =
      .next (if d then decStart (takeStart (modeOfPin d) s) else encStart (takeStart (modeOfPin d) s)) := by
  cases d with
  | false => exact encodeStarts s hb
  | true => exact decodeStarts s hb

/-- Every way a machine step answers a next state. -/
theorem step_next {s t : State} (h : step s = .next t) :
    hostTurn s = .settled t ∨
    (∃ d s', hostTurn s = .begin d s' ∧ exec (decodeCommand d) s' = .next t) ∨
    ∃ s', hostTurn s = .running s' ∧
      ((s'.mode = .encode ∧ encTick s' = .next t) ∨
       (s'.mode = .decode ∧
         ((s'.dState ≠ .readingHeader ∧ finishRecord s' = .next t) ∨
          (s'.dState = .readingHeader ∧ partialRecord s' = .next t) ∨
          ∃ i rest, decodeRecord (leadingBytes s'.inQueue) = .ok (i, rest) ∧
            exec i (takeBytes (recordLength i) s') = .next t))) := by
  unfold step nextAction at h
  cases hturn : hostTurn s with
  | settled s' =>
    simp only [hturn] at h
    cases h
    exact .inl rfl
  | begin d s' => exact .inr (.inl ⟨d, s', rfl, by simpa only [hturn] using h⟩)
  | running s' =>
    refine .inr (.inr ⟨s', rfl, ?_⟩)
    simp only [hturn] at h
    cases hm : s'.mode with
    | encode => exact .inl ⟨rfl, by simpa only [hm] using h⟩
    | decode =>
      refine .inr ⟨rfl, ?_⟩
      simp only [hm, decodeAction] at h
      by_cases hd : s'.dState = .readingHeader
      · rw [if_pos hd] at h
        cases hrec : decodeRecord (leadingBytes s'.inQueue) with
        | ok found => exact .inr (.inr ⟨_, _, rfl, by simpa only [hrec] using h⟩)
        | error e => exact .inr (.inl ⟨hd, by simpa only [hrec] using h⟩)
      · exact .inl ⟨hd, by simpa only [if_neg hd] using h⟩
  | refuse r => simp [hturn] at h

/-! ## Properties of the control registers and the collaborator's side, through a machine step

`P` does not look at the units' elements, and every effect of a unit's step keeps it. -/

section
variable {P : State → Prop} (hblank : ∀ t u, blankUnits t = blankUnits u → P u → P t)
  (heffect : ∀ s u, Effect s u → P s → P u)
include heffect

theorem takeBytes_keeps (n : Nat) {s : State} (hs : P s) : P (takeBytes n s) := by
  induction n generalizing s with
  | zero => exact hs
  | succ n ih =>
    unfold takeBytes
    split
    · exact hs
    · exact ih (heffect s _ (.read _ _ ‹_›) hs)

include hblank

theorem decTick_keeps {s t : State} (hs : P s) (h : decTick s = .next t) : P t := by
  obtain ⟨u, hu, hb⟩ := decTick_effect h
  exact hblank t u (congrArg blankEnc hb) (heffect s u hu hs)

theorem runWhile_midRecord_keeps {fuel : Nat} {s t : State} (hs : P s)
    (h : runWhile State.midRecord decTick fuel s = .next t) : P t :=
  runWhile_keeps (fun _ _ _ hs => decTick_keeps hblank heffect hs) fuel s t hs h

theorem partialRecord_keeps {s t : State} (hs : P s) (h : partialRecord s = .next t) : P t := by
  cases hf : fetchHeader s with
  | next s' =>
    obtain ⟨u, hu, hb⟩ := fetchHeader_effect hf
    rw [partialRecord_eq, hf] at h
    exact runWhile_midRecord_keeps hblank heffect (hblank s' u (congrArg blankEnc hb) (heffect s u hu hs)) h
  | fault r => simp [partialRecord, hf] at h
  | refused r => simp [partialRecord, hf] at h

/-- The execution of a record keeps the property: it runs the decoder from latched registers, or has no effect. -/
theorem exec_record_keeps {i : Instr} (hi : i.isRecord = true) {s t : State} (hs : P s) (h : exec i s = .next t) :
    P t := by
  cases i with
  | endRec flag =>
    simp only [exec, execEnd] at h
    split at h
    · obtain ⟨u, hu, hb⟩ := flushThen_effect (view := blankUnits) h fun u hu => by cases hu; rfl
      exact hblank t u hb (heffect _ u hu (hblank _ s rfl hs))
    · cases h; exact hs
  | run count value =>
    simp only [exec, execRun] at h
    split at h
    · exact runWhile_midRecord_keeps hblank heffect (hblank (latchRun count value s) s rfl hs) h
    · cases h; exact hs
  | lit body =>
    simp only [exec, execLit] at h
    split at h
    · exact runWhile_midRecord_keeps hblank heffect (hblank (latchLit body s) s rfl hs) h
    · cases h; exact hs
  | encode | decode => cases hi

/-- A machine step keeps the property if the control block's turn does. -/
theorem step_keeps {s t : State} (hsettled : ∀ s', hostTurn s = .settled s' → P s')
    (hbegin : ∀ d s', hostTurn s = .begin d s' → P (takeStart (modeOfPin d) s'))
    (hrunning : ∀ s', hostTurn s = .running s' → P s') (h : step s = .next t) : P t := by
  rcases step_next h with hturn | ⟨d, s', hturn, h⟩ | ⟨s', hturn, ⟨-, h⟩ | ⟨-, ⟨-, h⟩ | ⟨-, h⟩ | ⟨i, rest, hrec, h⟩⟩⟩
  · exact hsettled t hturn
  · have hidle : s'.status ≠ .busy := by
      rw [hostTurn_eq] at hturn
      obtain ⟨hidle, -, -, -, rfl⟩ := controlTurn_begin hturn
      simpa using hidle
    rw [exec_decodeCommand d hidle] at h
    cases h
    refine hblank _ _ ?_ (hbegin d s' hturn)
    cases d <;> rfl
  · obtain ⟨u, hu, hb⟩ := encTick_effect h
    exact hblank t u (congrArg blankDec hb) (heffect s' u hu (hrunning s' hturn))
  · exact runWhile_midRecord_keeps hblank heffect (hrunning s' hturn) h
  · exact partialRecord_keeps hblank heffect (hrunning s' hturn) h
  · exact exec_record_keeps hblank heffect (isRecord_of_decodeRecord hrec)
      (takeBytes_keeps heffect _ (hrunning s' hturn)) h

end

/-! ### The kinds of the collaborator's failures (R25) -/

/-- Every kind queued, to be queued, or held in ERRKIND is a value of KIND_W bits. -/
def KindsHeld (s : State) : Prop := kindsFit s ∧ s.errKind < 2 ^ Config.kindW

theorem errKindOf_unexpectedEof (c : ErrCause) : errKindOf c .unexpectedEof = 0 := by cases c <;> rfl

theorem errKindOf_io (c : ErrCause) (k : IoErrorKind) : errKindOf c (.io k) = k ∨ errKindOf c (.io k) = 0 := by
  cases c <;> simp [errKindOf]

/-- Raising records the collaborator's kind or 0 (R156). -/
theorem KindsHeld.raise {s : State} (hs : KindsHeld s) (c : ErrCause) {d : FailKind}
    (hd : ∀ k, d = .io k → k < 2 ^ Config.kindW) : KindsHeld (s.raise c d) := by
  refine ⟨hs.1, ?_⟩
  rw [State.raise_errKind]
  cases d with
  | unexpectedEof => exact errKindOf_unexpectedEof c ▸ Nat.two_pow_pos _
  | io k =>
    rcases errKindOf_io c k with he | he <;> rw [he]
    · exact hd k rfl
    · exact Nat.two_pow_pos _

theorem kindsHeld_of_blank (t u : State) (hb : blankUnits t = blankUnits u) (hu : KindsHeld u) : KindsHeld t :=
  (congrArg KindsHeld hb).mpr hu

/-- An answer consumed leaves the others queued; a failing one puts its kind into ERRKIND. -/
theorem kindsHeld_of_effect (s u : State) (h : Effect s u) (hs : KindsHeld s) : KindsHeld u := by
  have hin : ∀ k, InAnswer.fail k ∈ s.inQueue → k < 2 ^ Config.kindW := hs.1.1
  have hout : ∀ k, OutAnswer.fail k ∈ s.outQueue → k < 2 ^ Config.kindW := hs.1.2.1
  have read {a q} (hq : s.inQueue = a :: q) : KindsHeld (s.afterRead a q) :=
    ⟨⟨fun k hk => hin k (hq ▸ .tail _ hk), hs.1.2⟩, hs.2⟩
  have written {a q} (b : Byte) (hq : s.outQueue = a :: q) : KindsHeld (s.afterWrite b a q) :=
    ⟨⟨hin, fun k hk => hout k (hq ▸ .tail _ hk), hs.1.2.2⟩, hs.2⟩
  have flushed {a q} (hq : s.outQueue = a :: q) : KindsHeld (s.afterFlush a q) :=
    ⟨⟨hin, fun k hk => hout k (hq ▸ .tail _ hk), hs.1.2.2⟩, hs.2⟩
  cases h with
  | silent => exact hs
  | read a q hq => exact read hq
  | eofRaised c q hq => exact (read hq).raise c fun k hk => by cases hk
  | readFailed k q hq => exact (read hq).raise _ fun k' hk => by cases hk; exact hin k (hq ▸ .head _)
  | wrote b q hq => exact written b hq
  | writeFailed b k q hq => exact (written b hq).raise _ fun k' hk => by cases hk; exact hout k (hq ▸ .head _)
  | flushed q hq => exact flushed hq
  | flushFailed k q hq => exact (flushed hq).raise _ fun k' hk => by cases hk; exact hout k (hq ▸ .head _)

/-- What is presented at a step is queued. -/
theorem KindsHeld.presented {s : State} (hs : KindsHeld s) :
    KindsHeld (deliver (s.host.headD HostInput.low) { s with host := s.host.tail }) := by
  obtain ⟨⟨hin, hout, hhost⟩, hkind⟩ := hs
  cases hh : s.host with
  | nil => exact ⟨⟨by simpa using hin, by simpa using hout, by simp⟩, by simpa using hkind⟩
  | cons p ps =>
    obtain ⟨hpin, hpout⟩ := hhost p (by simp [hh])
    refine ⟨⟨fun k hk => ?_, fun k hk => ?_, fun p' hp' => hhost p' ?_⟩, by simpa using hkind⟩
    · simp only [deliver_inQueue, List.headD_cons] at hk
      split at hk
      · exact hpin k hk
      · exact (List.mem_append.mp hk).elim (hin k) (hpin k)
    · simp only [deliver_outQueue, List.headD_cons] at hk
      split at hk
      · exact hpout k hk
      · exact (List.mem_append.mp hk).elim (hout k) (hpout k)
    · rw [deliver_host] at hp'
      exact hh ▸ .tail _ hp'

/-- Settles O49: what is presented fits, and the effects of a step keep it so. -/
theorem errKindFits : Obligations.ErrKindFits := by
  intro s t hfit hkind h
  have hs : KindsHeld s := ⟨hfit, hkind⟩
  refine step_keeps kindsHeld_of_blank kindsHeld_of_effect (fun s' hturn => ?_) (fun d s' hturn => ?_)
    (fun s' hturn => ?_) h
  all_goals rw [hostTurn_eq] at hturn
  · obtain ⟨-, ⟨-, rfl⟩ | ⟨-, -, rfl⟩⟩ := controlTurn_settled hturn
    · exact ⟨hs.presented.1, Nat.two_pow_pos _⟩
    · exact hs.presented
  · obtain ⟨-, -, -, -, rfl⟩ := controlTurn_begin hturn
    exact ⟨hs.presented.1, Nat.two_pow_pos _⟩
  · obtain ⟨-, -, -, rfl⟩ := controlTurn_running hturn
    exact hs.presented

/-! ## The encoder's measures (R87) -/

theorem written_iff (m : Memory) (n : Nat) : written m n = true ↔ ∀ a, a < n → ∃ b, readCell m a = some b := by
  simp [written, Option.isSome_iff_exists]

theorem countSame_congr {m m' : Memory} {n : Nat} (b : Byte) (h : ∀ a, a < n → readCell m a = readCell m' a)
    (cap i : Nat) : countSame m n b cap i = countSame m' n b cap i := by
  induction cap generalizing i with
  | zero => rfl
  | succ cap ih =>
    unfold countSame
    split
    · rw [h i ‹_›, ih]
    · rfl

/-- Below N every byte is there, so the count answers; it passes neither the cap nor N. -/
theorem countSame_ok {m : Memory} {n : Nat} (b : Byte) (hw : written m n = true) (cap : Nat) {i : Nat} (hi : i ≤ n) :
    ∃ r, countSame m n b cap i = .ok r ∧ r ≤ cap ∧ i + r ≤ n := by
  induction cap generalizing i with
  | zero => exact ⟨0, rfl, le_rfl, hi⟩
  | succ cap ih =>
    by_cases hlt : i < n
    · obtain ⟨x, hx⟩ := (written_iff m n).mp hw i hlt
      obtain ⟨r, hr, hcap, hn⟩ := ih hlt
      by_cases hxb : x = b
      · exact ⟨r + 1, by simp [countSame, hlt, hx, hxb, hr], by omega, by omega⟩
      · exact ⟨0, by simp [countSame, hlt, hx, hxb], by omega, hi⟩
    · exact ⟨0, by simp [countSame, hlt], by omega, hi⟩

/-- A smaller cap cuts the count off. -/
theorem countSame_min {m : Memory} {n cap i r : Nat} {b : Byte} (h : countSame m n b cap i = .ok r) {c : Nat}
    (hc : c ≤ cap) : countSame m n b c i = .ok (min c r) := by
  induction c generalizing cap i r with
  | zero => simp [countSame]
  | succ c ih =>
    obtain ⟨cap, rfl⟩ : ∃ k, cap = k + 1 := ⟨cap - 1, by omega⟩
    unfold countSame at h ⊢
    split at h
    · rename_i hlt
      rw [if_pos hlt]
      cases hx : readCell m i with
      | none => simp [hx] at h
      | some x =>
        simp only [hx] at h ⊢
        split at h
        · rename_i hxb
          rw [if_pos hxb]
          cases hr : countSame m n b cap (i + 1) with
          | error f => simp [hr] at h
          | ok r' =>
            rw [hr] at h
            cases h
            rw [ih hr (by omega)]
            exact congrArg Except.ok (by omega)
        · rename_i hxb
          cases h
          rw [if_neg hxb]
          rfl
    · rename_i hlt
      cases h
      rw [if_neg hlt]
      rfl

theorem measureRun_congr {s t : State} (hn : s.n = t.n) (h : ∀ a, a < s.n → readCell s.ibuf a = readCell t.ibuf a)
    (i cap : Nat) : measureRun s i cap = measureRun t i cap := by
  unfold measureRun
  rw [← hn]
  split
  · rw [h i ‹_›]
    split
    · rfl
    · exact countSame_congr _ h cap i
  · rfl

theorem measureRun_ok {s : State} (hw : written s.ibuf s.n = true) {i : Nat} (hi : i < s.n) (cap : Nat) :
    ∃ r, measureRun s i (cap + 1) = .ok r ∧ 1 ≤ r ∧ r ≤ cap + 1 ∧ i + r ≤ s.n := by
  obtain ⟨b, hb⟩ := (written_iff _ _).mp hw i hi
  obtain ⟨r, hr, hcap, hn⟩ := countSame_ok b hw cap hi
  exact ⟨r + 1, by simp [measureRun, countSame, hi, hb, hr], by omega, by omega, by omega⟩

/-- A smaller cap cuts the measure off (R87). -/
theorem measureRun_min {s : State} {i cap r c : Nat} (h : measureRun s i cap = .ok r) (hc : c ≤ cap) :
    measureRun s i c = .ok (min c r) := by
  unfold measureRun at h ⊢
  split at h
  · rename_i hi
    rw [if_pos hi]
    cases hb : readCell s.ibuf i with
    | none => simp [hb] at h
    | some b => simpa only [hb] using countSame_min (by simpa only [hb] using h) hc
  · cases h

theorem measureRun_lt {s : State} {i cap r : Nat} (h : measureRun s i cap = .ok r) : i < s.n := by
  unfold measureRun at h
  split at h
  · assumption
  · cases h

theorem qualifies_eq_true (m : Nat) : qualifies m = true ↔ 3 ≤ m := decide_eq_true_iff

theorem qualifies_eq_false (m : Nat) : qualifies m = false ↔ m < 3 := decide_eq_false_iff_not.trans Nat.not_le

theorem literalTakes_le (fill : LitFill) (acc : Nat) {m : Nat} (hm : 1 ≤ m) : literalTakes fill acc m ≤ m := by
  unfold literalTakes
  split
  · exact Nat.zero_le m
  · cases fill with
    | split => exact hm
    | defer => dsimp only; split <;> omega
    | chunk => exact le_rfl

/-- A literal begun below 127 bytes stays within its longest length (R94, R133). -/
theorem literalTakes_fits (fill : LitFill) {acc : Nat} (m : Nat) (hacc : acc < 127) :
    acc + literalTakes fill acc m ≤ literalMax fill := by
  unfold literalTakes Config.lenMax
  split
  · cases fill <;> simp only [literalMax] <;> omega
  · rename_i hq
    have hm : m < 3 := (qualifies_eq_false m).mp (Bool.not_eq_true _ ▸ hq)
    cases fill with
    | split => exact hacc
    | defer => simp only [literalMax]; split <;> omega
    | chunk => simp only [literalMax]; omega

/-- A literal takes its first byte where no run of three starts. -/
theorem literalTakes_zero_ne (fill : LitFill) {m : Nat} (hm : 1 ≤ m) (hq : qualifies m = false) :
    literalTakes fill 0 m ≠ 0 := by
  have hm3 : m < 3 := (qualifies_eq_false m).mp hq
  unfold literalTakes Config.lenMax
  rw [hq, if_neg Bool.false_ne_true]
  cases fill with
  | split => exact Nat.one_ne_zero
  | defer => dsimp only; split <;> omega
  | chunk => dsimp only; omega

/-! ## Two invocations side by side -/

/-- Two outcomes of a kind: related next states, or the same refusal. Neither is a fault. -/
inductive Alike (R : State → State → Prop) : Res → Res → Prop where
  | next {s t : State} : R s t → Alike R (.next s) (.next t)
  | refused (r : Refusal) : Alike R (.refused r) (.refused r)

theorem Alike.andThen {R : State → State → Prop} {a b : Res} {f g : State → Res} (h : Alike R a b)
    (hf : ∀ s t, R s t → Alike R (f s) (g t)) : Alike R (andThen a f) (andThen b g) := by
  cases h with
  | next h => exact hf _ _ h
  | refused r => exact .refused r

theorem Alike.ite {R : State → State → Prop} {c c' : Prop} [Decidable c] [Decidable c'] {a a' b b' : Res}
    (hc : c ↔ c') (ha : c → Alike R a a') (hb : ¬c → Alike R b b') :
    Alike R (if c then a else b) (if c' then a' else b') := by
  by_cases h : c
  · rw [if_pos h, if_pos (hc.mp h)]
    exact ha h
  · rw [if_neg h, if_neg (hc.not.mp h)]
    exact hb h

theorem sameSurroundings_iff (s t : State) : sameSurroundings s t ↔ blankUnits s = blankUnits t := by
  simp [sameSurroundings, blankUnits, blankDec, blankEnc, blankEncRegs]

/-- The elements of ENC and FRM that the rest of an invocation can read agree, by ESTATE: the loaded part of IBUF (R48),
the positions, and the record at hand. -/
def EncAgree (s t : State) : Prop :=
  s.eState = t.eState ∧ s.n = t.n ∧ s.i = t.i ∧ (∀ a, a < s.n → readCell s.ibuf a = readCell t.ibuf a) ∧
    match s.eState with
    | .litAcc => s.litStart = t.litStart ∧ s.litLen = t.litLen
    | .txRun => s.runLen = t.runLen ∧ s.txk = t.txk
    | .txLit => s.litStart = t.litStart ∧ s.litLen = t.litLen ∧ s.txk = t.txk
    | .load | .scan | .txEnd | .flush | .halt => True

/-- The elements of DEC that the rest of an invocation can read agree, by DSTATE and DPHASE: the record at hand and the
part of LBUF that holds its body (R49). -/
def DecAgree (s t : State) : Prop :=
  s.dState = t.dState ∧
    match s.dState, s.dPhase with
    | .readingHeader, _ => True
    | .emittingRun, .fill => t.dPhase = .fill ∧ s.len = t.len
    | .emittingRun, .drain => t.dPhase = .drain ∧ s.len = t.len ∧ s.k = t.k ∧ s.val = t.val
    | .emittingLiteral, .fill =>
      t.dPhase = .fill ∧ s.len = t.len ∧ s.k = t.k ∧ ∀ a, a < s.k.toNat → readCell s.lbuf a = readCell t.lbuf a
    | .emittingLiteral, .drain =>
      t.dPhase = .drain ∧ s.len = t.len ∧ s.k = t.k ∧ ∀ a, a < s.len.toNat → readCell s.lbuf a = readCell t.lbuf a
    | .done, _ => True

/-- Two cores of which an observer can never tell one from the other: the same surroundings, and in a running invocation
a good state of the active unit and agreement on what that unit can read. -/
structure Related (s t : State) : Prop where
  same : blankUnits s = blankUnits t
  enc : s.encoding = true → encOk s = true ∧ EncAgree s t
  dec : s.decoding = true → decOk s = true ∧ DecAgree s t

theorem encoding_iff (s : State) : s.encoding = true ↔ s.status = .busy ∧ s.mode = .encode := decide_eq_true_iff

theorem related_of_encode {s t : State} (hm : s.mode = .encode) (same : blankUnits s = blankUnits t)
    (hok : encOk s = true) (ha : EncAgree s t) : Related s t :=
  ⟨same, fun _ => ⟨hok, ha⟩, fun h => absurd (hm.symm.trans ((decoding_iff s).mp h).2) nofun⟩

theorem related_of_decode {s t : State} (hm : s.mode = .decode) (same : blankUnits s = blankUnits t)
    (hok : decOk s = true) (ha : DecAgree s t) : Related s t :=
  ⟨same, fun h => absurd (hm.symm.trans ((encoding_iff s).mp h).2) nofun, fun _ => ⟨hok, ha⟩⟩

theorem related_of_idle {s t : State} (hb : s.status ≠ .busy) (same : blankUnits s = blankUnits t) : Related s t :=
  ⟨same, fun h => absurd ((encoding_iff s).mp h).1 hb, fun h => absurd ((decoding_iff s).mp h).1 hb⟩

theorem Alike.observeRes {a b : Res} (h : Alike Related a b) : observeRes a = observeRes b ∧ observeRes a ≠ none := by
  cases h with
  | next h => exact ⟨(congrArg (fun r => Machine.observeRes (.next r)) h.same :), Option.some_ne_none _⟩
  | refused r => exact ⟨rfl, Option.some_ne_none _⟩

/-! ### The primitives

Both cores see the same answer; what follows the answer must again be of a kind. -/

section
variable {s t : State} (hw : Related s t)
include hw

theorem inRead_alike {rest rest' : InAnswer → State → Res}
    (hr : ∀ a q, blankUnits (s.afterRead a q) = blankUnits (t.afterRead a q) →
      Alike Related (rest a (s.afterRead a q)) (rest' a (t.afterRead a q))) :
    Alike Related (inRead s rest) (inRead t rest') := by
  have hq : s.inQueue = t.inQueue := (congrArg State.inQueue hw.same :)
  cases h : s.inQueue with
  | nil =>
    rw [inRead_waits _ h, inRead_waits _ (hq ▸ h)]
    exact .next hw
  | cons a q =>
    rw [inRead_cons _ h, inRead_cons _ (hq ▸ h)]
    exact hr a q (congrArg (State.afterRead · a q) hw.same)

theorem readThen_alike {c : ErrCause} {found found' : Byte → State → Res}
    (hf : ∀ b q, blankUnits (s.afterRead (.byte b) q) = blankUnits (t.afterRead (.byte b) q) →
      Alike Related (found b (s.afterRead (.byte b) q)) (found' b (t.afterRead (.byte b) q))) :
    Alike Related (readThen c s found) (readThen c t found') := by
  refine inRead_alike hw fun a q hs => ?_
  cases a with
  | byte b => exact hf b q hs
  | eos => exact .next (related_of_idle nofun (congrArg (State.raise · c .unexpectedEof) hs))
  | fail k => exact .next (related_of_idle nofun (congrArg (State.raise · .rdFail (.io k)) hs))

theorem writeThen_alike (b : Byte) {done done' : State → Res}
    (hd : ∀ q, blankUnits (s.afterWrite b .ok q) = blankUnits (t.afterWrite b .ok q) →
      Alike Related (done (s.afterWrite b .ok q)) (done' (t.afterWrite b .ok q))) :
    Alike Related (writeThen b s done) (writeThen b t done') := by
  have hq : s.outQueue = t.outQueue := (congrArg State.outQueue hw.same :)
  have same (a q) : blankUnits (s.afterWrite b a q) = blankUnits (t.afterWrite b a q) :=
    congrArg (State.afterWrite · b a q) hw.same
  match h : s.outQueue with
  | [] =>
    rw [writeThen_waits _ _ h, writeThen_waits _ _ (hq ▸ h)]
    exact .next hw
  | .ok :: q =>
    rw [writeThen_ok _ _ h, writeThen_ok _ _ (hq ▸ h)]
    exact hd q (same .ok q)
  | .fail k :: q =>
    rw [writeThen_fail _ _ h, writeThen_fail _ _ (hq ▸ h)]
    exact .next (related_of_idle nofun (congrArg (State.raise · .wrFail (.io k)) (same (.fail k) q)))

theorem flushThen_alike {done done' : State → Res}
    (hd : ∀ q, blankUnits (s.afterFlush .ok q) = blankUnits (t.afterFlush .ok q) →
      Alike Related (done (s.afterFlush .ok q)) (done' (t.afterFlush .ok q))) :
    Alike Related (flushThen s done) (flushThen t done') := by
  have hq : s.outQueue = t.outQueue := (congrArg State.outQueue hw.same :)
  have same (a q) : blankUnits (s.afterFlush a q) = blankUnits (t.afterFlush a q) :=
    congrArg (State.afterFlush · a q) hw.same
  unfold flushThen outFlush
  rw [← hq]
  match s.outQueue with
  | [] => exact .next hw
  | .ok :: q => exact hd q (same .ok q)
  | .fail k :: q => exact .next (related_of_idle nofun (congrArg (State.raise · .flFail (.io k)) (same (.fail k) q)))

end

/-! ### The encoder -/

/-- What the encoder's steps are compared under: MODE is encode, and all that `Related` asks of a running invocation. -/
structure EncRelated (s t : State) : Prop where
  mode : s.mode = .encode
  same : blankUnits s = blankUnits t
  ok : encOk s = true
  agree : EncAgree s t

theorem EncRelated.related {s t : State} (h : EncRelated s t) : Related s t :=
  related_of_encode h.mode h.same h.ok h.agree

/-! The branches of the silent steps (R90, R92). -/

theorem encScan_end {s : State} (h : s.i = s.n) : encScan s = .next { s with eState := .txEnd } := if_pos h

theorem encScan_run {s : State} {r : Nat} (h : s.i ≠ s.n) (hr : measureRun s s.i Config.lenMax = .ok r)
    (hq : qualifies r = true) :
    encScan s = .next { s with runLen := BitVec.ofNat 7 r, txk := 0, eState := .txRun } := by
  rw [encScan, if_neg h, hr]
  exact if_pos hq

theorem encScan_literal {s : State} {r : Nat} (h : s.i ≠ s.n) (hr : measureRun s s.i Config.lenMax = .ok r)
    (hq : qualifies r = false) :
    encScan s =
      .next { s with runLen := BitVec.ofNat 7 r, litStart := s.i, litLen := 0, eState := .litAcc } := by
  rw [encScan, if_neg h, hr]
  exact if_neg (Bool.not_eq_true _ ▸ hq)

theorem encLitAcc_full {s : State} (h : ¬(s.litLen.toNat < Config.lenMax ∧ s.i < s.n)) :
    encLitAcc s = .next (closeLiteral s) := if_neg h

theorem encLitAcc_stop {s : State} {m : Nat} (h : s.litLen.toNat < Config.lenMax ∧ s.i < s.n)
    (hm : measureRun s s.i Config.lookahead = .ok m) (ht : literalTakes s.par.litFill s.litLen.toNat m = 0) :
    encLitAcc s = .next (closeLiteral s) := by
  rw [encLitAcc, if_pos h, hm]
  simp only [ht]

theorem encLitAcc_take {s : State} {m k : Nat} (h : s.litLen.toNat < Config.lenMax ∧ s.i < s.n)
    (hm : measureRun s s.i Config.lookahead = .ok m) (ht : literalTakes s.par.litFill s.litLen.toNat m = k + 1) :
    encLitAcc s = .next { s with litLen := s.litLen + BitVec.ofNat 8 (k + 1), i := s.i + (k + 1) } := by
  rw [encLitAcc, if_pos h, hm]
  simp only [ht]

theorem encOk_iff (s : State) : encOk s = true ↔ withinCap s.par s.n = true ∧ written s.ibuf s.n = true ∧
    match s.eState with
    | .load => True
    | .scan => s.i ≤ s.n
    | .litAcc => (s.litStart + s.litLen.toNat = s.i ∧ s.i ≤ s.n ∧ s.litLen.toNat ≤ literalMax s.par.litFill) ∧
        (s.litLen ≠ 0 ∨ literalOpens s = true)
    | .txRun => s.i + s.runLen.toNat ≤ s.n ∧ 3 ≤ s.runLen.toNat ∧ s.txk.toNat ≤ 1
    | .txLit => s.litStart + s.litLen.toNat = s.i ∧ s.i ≤ s.n ∧ 1 ≤ s.litLen.toNat ∧
        s.litLen.toNat ≤ literalMax s.par.litFill ∧ s.txk.toNat ≤ s.litLen.toNat
    | .txEnd => s.i = s.n
    | .flush => s.i = s.n
    | .halt => False := by
  unfold encOk
  cases s.eState <;> simp [and_assoc]

theorem EncRelated.measureRun_eq {s t : State} (h : EncRelated s t) (cap : Nat) :
    measureRun s s.i cap = measureRun t t.i cap := by
  obtain ⟨-, hn, hi, hmem, -⟩ := h.agree
  rw [← hi]
  exact measureRun_congr hn hmem _ _

/-- A byte the encoder has loaded is the same in both cores, and is there. -/
theorem EncRelated.readIbuf_alike {s t : State} (h : EncRelated s t) {a a' : Nat} (ha : a < s.n) (haa : a = a')
    {use use' : Byte → Res} (hu : ∀ b, Alike Related (use b) (use' b)) :
    Alike Related (readIbuf s a use) (readIbuf t a' use') := by
  obtain ⟨-, hw, -⟩ := (encOk_iff s).mp h.ok
  obtain ⟨-, -, -, hmem, -⟩ := h.agree
  obtain ⟨b, hb⟩ := (written_iff _ _).mp hw a ha
  have hb' : readCell t.ibuf a' = some b := by rw [← haa, ← hmem a ha, hb]
  simpa only [readIbuf, hb, hb'] using hu b

theorem withinCap_succ {p : Params} {n : Nat} (h : withinCap p n = true) (hn : p.ibufCap ≠ some n) :
    withinCap p (n + 1) = true ∧ ibufHas p n = true := by
  unfold withinCap ibufHas at *
  cases hc : p.ibufCap with
  | none => exact ⟨rfl, rfl⟩
  | some c =>
    rw [hc] at h hn
    have hle : n ≤ c := by simpa using h
    have hne : c ≠ n := fun e => hn (congrArg some e)
    exact ⟨decide_eq_true (by omega), decide_eq_true (by omega)⟩

theorem writeIbuf_has {s : State} {a : Nat} {b : Byte} {rest : State → Res} (h : ibufHas s.par a = true) :
    writeIbuf s a b rest = rest { s with ibuf := writeCell s.ibuf a b } := if_pos h

theorem written_writeCell {m : Memory} {n : Nat} (b : Byte) (h : written m n = true) :
    written (writeCell m n b) (n + 1) = true := by
  refine (written_iff _ _).mpr fun a ha => ?_
  by_cases hn : a = n
  · exact ⟨b, hn ▸ readCell_writeCell_same m n b⟩
  · rw [readCell_writeCell_other m b hn]
    exact (written_iff _ _).mp h a (by omega)

/-- A write at the same index keeps the agreement of two memories. -/
theorem readCell_writeCell_agree {m m' : Memory} {n : Nat} (b : Byte)
    (h : ∀ a, a < n → readCell m a = readCell m' a) :
    ∀ a, a < n + 1 → readCell (writeCell m n b) a = readCell (writeCell m' n b) a := by
  intro a ha
  by_cases hn : a = n
  · rw [hn, readCell_writeCell_same, readCell_writeCell_same]
  · rw [readCell_writeCell_other m b hn, readCell_writeCell_other m' b hn]
    exact h a (by omega)

section
variable {s t : State} (h : EncRelated s t)
include h

theorem encLoad_alike (hs : s.eState = .load) : Alike Related (encLoad s) (encLoad t) := by
  refine inRead_alike h.related fun a q same => ?_
  obtain ⟨hcap, hw, -⟩ := (encOk_iff s).mp h.ok
  obtain ⟨he, hn, hi, hmem, -⟩ := h.agree
  have hpar : s.par = t.par := (congrArg State.par h.same :)
  cases a with
  | byte b =>
    refine .ite (by simp [hpar, hn]) (fun _ => .refused _) fun hfull => ?_
    obtain ⟨hcap', hhas⟩ := withinCap_succ hcap hfull
    rw [State.afterRead_n, State.afterRead_n, writeIbuf_has (s := s.afterRead _ q) hhas,
      writeIbuf_has (s := t.afterRead _ q) (hpar ▸ hn ▸ hhas)]
    refine .next (related_of_encode h.mode same ?_ ?_)
    · exact (encOk_iff _).mpr ⟨hcap', written_writeCell b hw, by simp [hs]⟩
    · exact ⟨he, congrArg (· + 1) hn, hi, hn ▸ readCell_writeCell_agree b hmem, by simp [hs]⟩
  | eos =>
    refine .next (related_of_encode h.mode same ?_ ⟨rfl, hn, rfl, hmem, trivial⟩)
    exact (encOk_iff _).mpr ⟨hcap, hw, Nat.zero_le _⟩
  | fail k => exact .next (related_of_idle nofun (congrArg (State.raise · .rdFail (.io k)) same))

theorem encScan_alike (hs : s.eState = .scan) : Alike Related (encScan s) (encScan t) := by
  obtain ⟨hcap, hw, hok⟩ := (encOk_iff s).mp h.ok
  obtain ⟨-, hn, hi, hmem, -⟩ := h.agree
  have hle : s.i ≤ s.n := by simpa only [hs] using hok
  by_cases hend : s.i = s.n
  · rw [encScan_end hend, encScan_end (hi ▸ hn ▸ hend)]
    refine .next (related_of_encode h.mode h.same ?_ ⟨rfl, hn, hi, hmem, trivial⟩)
    exact (encOk_iff _).mpr ⟨hcap, hw, hend⟩
  · have hend' : t.i ≠ t.n := hi ▸ hn ▸ hend
    obtain ⟨r, hr, -, hr127, hrn⟩ := measureRun_ok hw (show s.i < s.n by omega) 126
    have hr' : measureRun t t.i Config.lenMax = .ok r := h.measureRun_eq _ ▸ hr
    cases hq : qualifies r with
    | true =>
      rw [encScan_run hend hr hq, encScan_run hend' hr' hq]
      refine .next (related_of_encode h.mode h.same ?_ ⟨rfl, hn, hi, hmem, rfl, rfl⟩)
      have h3 := (qualifies_eq_true r).mp hq
      have hrl : (BitVec.ofNat 7 r).toNat = r := Nat.mod_eq_of_lt (Nat.lt_succ_of_le hr127)
      exact (encOk_iff _).mpr ⟨hcap, hw, by simpa only [hrl] using hrn, by simpa only [hrl] using h3, Nat.zero_le 1⟩
    | false =>
      rw [encScan_literal hend hr hq, encScan_literal hend' hr' hq]
      refine .next (related_of_encode h.mode h.same ?_ ⟨rfl, hn, hi, hmem, hi, rfl⟩)
      have hopens : literalOpens s = true := by
        have h3 := (qualifies_eq_false r).mp hq
        have hmin : measureRun s s.i Config.lookahead = .ok r :=
          (measureRun_min hr (by decide)).trans (congrArg _ (Nat.min_eq_right h3.le))
        rw [literalOpens, hmin]
        simp [hq]
      exact (encOk_iff _).mpr ⟨hcap, hw, ⟨rfl, hle, Nat.zero_le _⟩, .inr hopens⟩

/-- The literal handed to FRM: it has at least one byte. -/
theorem closeLiteral_alike (hs : s.eState = .litAcc) (hl : 1 ≤ s.litLen.toNat) :
    Related (closeLiteral s) (closeLiteral t) := by
  obtain ⟨hcap, hw, hok⟩ := (encOk_iff s).mp h.ok
  obtain ⟨-, hn, hi, hmem, hregs⟩ := h.agree
  simp only [hs] at hok hregs
  obtain ⟨⟨hpos, hle, hmax⟩, -⟩ := hok
  refine related_of_encode h.mode h.same ?_ ⟨rfl, hn, hi, hmem, hregs.1, hregs.2, rfl⟩
  exact (encOk_iff _).mpr ⟨hcap, hw, hpos, hle, hl, hmax, Nat.zero_le _⟩

theorem encLitAcc_alike (hs : s.eState = .litAcc) : Alike Related (encLitAcc s) (encLitAcc t) := by
  obtain ⟨hcap, hw, hok⟩ := (encOk_iff s).mp h.ok
  obtain ⟨he, hn, hi, hmem, hregs⟩ := h.agree
  simp only [hs] at hok hregs
  obtain ⟨⟨hpos, hle, hmax⟩, hopens⟩ := hok
  obtain ⟨hstart, hlen⟩ := hregs
  have hpar : s.par = t.par := (congrArg State.par h.same :)
  have opened (hl : ¬1 ≤ s.litLen.toNat) : ∃ m, measureRun s s.i Config.lookahead = .ok m ∧ qualifies m = false := by
    have hopens : literalOpens s = true := hopens.resolve_left fun hne => hl (by bv_omega)
    unfold literalOpens at hopens
    split at hopens
    · exact ⟨_, ‹_›, by simpa using hopens⟩
    · cases hopens
  by_cases hfull : s.litLen.toNat < Config.lenMax ∧ s.i < s.n
  · have hfull' : t.litLen.toNat < Config.lenMax ∧ t.i < t.n := hlen ▸ hi ▸ hn ▸ hfull
    obtain ⟨m, hm, hm1, -, hmn⟩ := measureRun_ok hw hfull.2 2
    have hm' : measureRun t t.i Config.lookahead = .ok m := h.measureRun_eq _ ▸ hm
    have htakes : literalTakes t.par.litFill t.litLen.toNat m = literalTakes s.par.litFill s.litLen.toNat m := by
      rw [hpar, hlen]
    cases ht : literalTakes s.par.litFill s.litLen.toNat m with
    | zero =>
      rw [encLitAcc_stop hfull hm ht, encLitAcc_stop hfull' hm' (htakes.trans ht)]
      refine .next (closeLiteral_alike h hs ?_)
      by_contra hl
      obtain ⟨m', hm', hq⟩ := opened hl
      obtain rfl : m = m' := Except.ok.inj (hm.symm.trans hm')
      exact literalTakes_zero_ne s.par.litFill hm1 hq (by rwa [Nat.lt_one_iff.mp (Nat.not_le.mp hl)] at ht)
    | succ k =>
      rw [encLitAcc_take hfull hm ht, encLitAcc_take hfull' hm' (htakes.trans ht)]
      have hkm : k + 1 ≤ m := ht ▸ literalTakes_le s.par.litFill _ hm1
      have hfits : s.litLen.toNat + (k + 1) ≤ literalMax s.par.litFill := ht ▸ literalTakes_fits _ m hfull.1
      have h128 : literalMax s.par.litFill ≤ 128 := by cases s.par.litFill <;> decide
      have hsum : (s.litLen + BitVec.ofNat 8 (k + 1)).toNat = s.litLen.toNat + (k + 1) := by
        rw [BitVec.toNat_add, BitVec.toNat_ofNat]; omega
      refine .next (related_of_encode h.mode h.same ?_ ⟨he, hn, by simp [hi], hmem, ?_⟩)
      · refine (encOk_iff _).mpr ⟨hcap, hw, ?_⟩
        simp only [hs, hsum]
        exact ⟨⟨by omega, by omega, hfits⟩, .inl fun h0 => by rw [h0] at hsum; simp at hsum⟩
      · simp only [hs, hstart, hlen, and_self]
  · rw [encLitAcc_full hfull, encLitAcc_full (hlen ▸ hi ▸ hn ▸ hfull)]
    refine .next (closeLiteral_alike h hs ?_)
    by_contra hl
    obtain ⟨m, hm, -⟩ := opened hl
    exact hfull ⟨by simp only [Config.lenMax]; omega, measureRun_lt hm⟩

theorem encEmitRun_alike (hs : s.eState = .txRun) : Alike Related (encEmitRun s) (encEmitRun t) := by
  obtain ⟨hcap, hw, hok⟩ := (encOk_iff s).mp h.ok
  obtain ⟨he, hn, hi, hmem, hregs⟩ := h.agree
  simp only [hs] at hok hregs
  obtain ⟨hrun, h3, htxk⟩ := hok
  obtain ⟨hlen, hk⟩ := hregs
  unfold encEmitRun txRun
  rw [← hlen]
  refine .ite (by rw [hk]) (fun _ => ?_) fun _ => ?_
  · refine writeThen_alike h.related _ fun q same => .next (related_of_encode h.mode same ?_ ?_)
    · exact (encOk_iff _).mpr ⟨hcap, hw, by simpa [hs] using ⟨hrun, h3⟩⟩
    · exact ⟨he, hn, hi, hmem, by simpa [hs] using hlen⟩
  · refine h.readIbuf_alike (show s.i < s.n by omega) hi fun b => ?_
    refine writeThen_alike h.related _ fun q same => .next (related_of_encode h.mode same ?_ ?_)
    · exact (encOk_iff _).mpr ⟨hcap, hw, hrun⟩
    · exact ⟨rfl, hn, by simp [hi, hlen], hmem, trivial⟩

theorem encEmitLit_alike (hs : s.eState = .txLit) : Alike Related (encEmitLit s) (encEmitLit t) := by
  obtain ⟨hcap, hw, hok⟩ := (encOk_iff s).mp h.ok
  obtain ⟨he, hn, hi, hmem, hregs⟩ := h.agree
  simp only [hs] at hok hregs
  obtain ⟨hpos, hle, h1, hmax, htxk⟩ := hok
  obtain ⟨hstart, hlen, hk⟩ := hregs
  unfold encEmitLit txLit
  rw [← hlen]
  refine .ite (by rw [hk]) (fun _ => ?_) fun hk0 => ?_
  · refine writeThen_alike h.related _ fun q same => .next (related_of_encode h.mode same ?_ ?_)
    · refine (encOk_iff _).mpr ⟨hcap, hw, ?_⟩
      simp only [State.afterWrite_eState, hs]
      exact ⟨hpos, hle, h1, hmax, h1⟩
    · exact ⟨he, hn, hi, hmem, by simpa [hs] using ⟨hstart, hlen⟩⟩
  · have hk1 : 1 ≤ s.txk.toNat := by bv_omega
    refine h.readIbuf_alike (show s.litStart + s.txk.toNat - 1 < s.n by omega) (by rw [hstart, hk]) fun b => ?_
    refine writeThen_alike h.related _ fun q same => .ite (by simp [hk, hlen]) (fun _ => ?_) fun hmore => ?_
    · refine .next (related_of_encode h.mode same ?_ ⟨rfl, hn, hi, hmem, trivial⟩)
      exact (encOk_iff _).mpr ⟨hcap, hw, hle⟩
    · have hmore : s.txk ≠ s.litLen := hmore
      have hsucc : (s.txk + 1).toNat ≤ s.litLen.toNat := by bv_omega
      refine .next (related_of_encode h.mode same ?_ ⟨he, hn, hi, hmem, ?_⟩)
      · refine (encOk_iff _).mpr ⟨hcap, hw, ?_⟩
        simp only [State.afterWrite_eState, hs]
        exact ⟨hpos, hle, h1, hmax, hsucc⟩
      · simpa [hs] using ⟨hstart, hlen, hk⟩

theorem encTick_alike : Alike Related (encTick s) (encTick t) := by
  obtain ⟨hcap, hw, hok⟩ := (encOk_iff s).mp h.ok
  obtain ⟨he, hn, hi, hmem, -⟩ := h.agree
  cases hs : s.eState <;> simp only [encTick, ← he, hs]
  case load => exact encLoad_alike h hs
  case scan => exact encScan_alike h hs
  case litAcc => exact encLitAcc_alike h hs
  case txRun => exact encEmitRun_alike h hs
  case txLit => exact encEmitLit_alike h hs
  case txEnd =>
    unfold encFinish txEnd
    refine writeThen_alike h.related _ fun q same => .next (related_of_encode h.mode same ?_ ?_)
    · exact (encOk_iff _).mpr ⟨hcap, hw, by simpa [hs] using hok⟩
    · exact ⟨rfl, hn, hi, hmem, trivial⟩
  case flush =>
    refine flushThen_alike h.related fun q same => .next (related_of_idle nofun ?_)
    exact congrArg (fun r : State => { r with status := .ok }) same
  case halt => simp only [hs] at hok

end

/-! ### The decoder -/

/-- What the decoder's steps are compared under: MODE is decode, and all that `Related` asks of a running invocation. -/
structure DecRelated (s t : State) : Prop where
  mode : s.mode = .decode
  same : blankUnits s = blankUnits t
  ok : decOk s = true
  agree : DecAgree s t

theorem DecRelated.related {s t : State} (h : DecRelated s t) : Related s t :=
  related_of_decode h.mode h.same h.ok h.agree

theorem decOk_iff (s : State) : decOk s = true ↔
    match s.dState, s.dPhase with
    | .readingHeader, _ => True
    | .emittingRun, .fill => s.len ≠ 0
    | .emittingRun, .drain => s.k.toNat < s.len.toNat
    | .emittingLiteral, .fill => s.k.toNat < s.len.toNat ∧ written s.lbuf s.k.toNat = true
    | .emittingLiteral, .drain => s.k.toNat < s.len.toNat ∧ written s.lbuf s.len.toNat = true
    | .done, _ => s.len = 0 := by
  unfold decOk
  cases s.dState <;> cases s.dPhase <;> simp

theorem writeLbuf_has {s : State} {a : Nat} {b : Byte} {rest : State → Res} (h : a < Config.lbufSize) :
    writeLbuf s a b rest = rest { s with lbuf := writeCell s.lbuf a b } := if_pos h

theorem len_pos_of_ne_zero {l : Len} (h : l ≠ 0) : 0 < l.toNat := by bv_omega

section
variable {s t : State} (h : DecRelated s t)
include h

theorem fetchHeader_alike : Alike Related (fetchHeader s) (fetchHeader t) := by
  unfold fetchHeader rxHdr
  refine readThen_alike h.related fun b q same =>
    .ite Iff.rfl (fun h0 => ?_) fun h0 => .ite Iff.rfl (fun _ => ?_) fun _ => ?_
  · exact .next (related_of_decode h.mode same ((decOk_iff _).mpr h0) ⟨rfl, trivial⟩)
  · refine .next (related_of_decode h.mode same ((decOk_iff _).mpr ⟨len_pos_of_ne_zero h0, rfl⟩) ?_)
    exact ⟨rfl, rfl, rfl, rfl, fun a ha => absurd ha (Nat.not_lt_zero a)⟩
  · exact .next (related_of_decode h.mode same ((decOk_iff _).mpr h0) ⟨rfl, rfl, rfl⟩)

/-- One byte of the record's expansion has been written: the record ends, or K is still below LEN. -/
theorem drained_related (hp : s.dPhase = .drain) (hd : s.dState = .emittingRun ∨ s.dState = .emittingLiteral) :
    Related (drained s) (drained t) := by
  have hok := (decOk_iff s).mp h.ok
  obtain ⟨hds, hagree⟩ := h.agree
  have hcount : s.k.toNat < s.len.toNat ∧ s.len = t.len ∧ s.k = t.k := by
    rcases hd with hd | hd <;> simp only [hd, hp] at hok hagree
    · exact ⟨hok, hagree.2.1, hagree.2.2.1⟩
    · exact ⟨hok.1, hagree.2.1, hagree.2.2.1⟩
  obtain ⟨hk, hlen, hkt⟩ := hcount
  by_cases hlast : s.k + 1 = s.len
  · rw [drained, drained, if_pos hlast, if_pos (hkt ▸ hlen ▸ hlast)]
    exact related_of_decode h.mode h.same rfl ⟨rfl, trivial⟩
  · rw [drained, drained, if_neg hlast, if_neg (hkt ▸ hlen ▸ hlast)]
    have hsucc : (s.k + 1).toNat < s.len.toNat := by bv_omega
    rcases hd with hd | hd <;> simp only [hd, hp] at hok hagree
    all_goals refine related_of_decode h.mode h.same ((decOk_iff _).mpr ?_) ⟨hds, ?_⟩
    all_goals simp only [hd, hp]
    · exact hsucc
    · exact ⟨hagree.1, hlen, congrArg (· + 1) hkt, hagree.2.2.2⟩
    · exact ⟨hsucc, hok.2⟩
    · exact ⟨hagree.1, hlen, congrArg (· + 1) hkt, hagree.2.2.2⟩

theorem runFill_alike (hd : s.dState = .emittingRun) (hp : s.dPhase = .fill) :
    Alike Related (runFill s) (runFill t) := by
  have hok := (decOk_iff s).mp h.ok
  obtain ⟨hds, hagree⟩ := h.agree
  simp only [hd, hp] at hok hagree
  unfold runFill rxRunVal
  refine readThen_alike h.related fun b q same => .next (related_of_decode h.mode same ?_ ?_)
  · exact (decOk_iff _).mpr (by simpa [hd] using len_pos_of_ne_zero hok)
  · exact ⟨hds, by simpa [hd] using hagree.2⟩

theorem litFill_alike (hd : s.dState = .emittingLiteral) (hp : s.dPhase = .fill) :
    Alike Related (litFill s) (litFill t) := by
  have hok := (decOk_iff s).mp h.ok
  obtain ⟨hds, hagree⟩ := h.agree
  simp only [hd, hp] at hok hagree
  obtain ⟨hk, hw⟩ := hok
  obtain ⟨hpt, hlen, hkt, hmem⟩ := hagree
  have hk127 : s.k.toNat < Config.lbufSize := lt_of_lt_of_le hk (Nat.le_of_lt_succ s.len.isLt)
  have hsucc := toNat_succ_of_lt hk127
  unfold litFill rxLitBody
  refine readThen_alike h.related fun b q same => ?_
  have hmem' : ∀ a, a < (s.k + 1).toNat →
      readCell (writeCell s.lbuf s.k.toNat b) a = readCell (writeCell t.lbuf t.k.toNat b) a := by
    rw [hsucc, ← hkt]
    exact readCell_writeCell_agree b hmem
  have hw' : written (writeCell s.lbuf s.k.toNat b) (s.k + 1).toNat = true := hsucc ▸ written_writeCell b hw
  rw [State.afterRead_k, State.afterRead_k, writeLbuf_has hk127, writeLbuf_has (hkt ▸ hk127)]
  refine .ite (by simp [hkt, hlen]) (fun hlast => ?_) fun hmore => ?_
  · have hlast : s.k + 1 = s.len := hlast
    rw [hlast] at hmem' hw'
    refine .next (related_of_decode h.mode same ?_ ⟨hds, ?_⟩)
    · exact (decOk_iff _).mpr (by simpa [hd] using ⟨Nat.zero_lt_of_lt hk, hw'⟩)
    · simpa [hd] using ⟨hlen, hmem'⟩
  · have hmore : s.k + 1 ≠ s.len := hmore
    have hlt : (s.k + 1).toNat < s.len.toNat := by bv_omega
    refine .next (related_of_decode h.mode same ?_ ⟨hds, ?_⟩)
    · refine (decOk_iff _).mpr ?_
      simp only [State.afterRead_dState, State.afterRead_dPhase, hd, hp]
      exact ⟨hlt, hw'⟩
    · simp only [State.afterRead_dState, State.afterRead_dPhase, hd, hp]
      exact ⟨hpt, hlen, congrArg (· + 1) hkt, hmem'⟩

theorem runDrain_alike (hd : s.dState = .emittingRun) (hp : s.dPhase = .drain) :
    Alike Related (runDrain s) (runDrain t) := by
  obtain ⟨-, hagree⟩ := h.agree
  simp only [hd, hp] at hagree
  obtain ⟨-, -, -, hval⟩ := hagree
  unfold runDrain
  rw [← hval]
  refine writeThen_alike h.related _ fun q same => ?_
  exact .next (drained_related ⟨h.mode, same, h.ok, h.agree⟩ hp (.inl hd))

theorem litDrain_alike (hd : s.dState = .emittingLiteral) (hp : s.dPhase = .drain) :
    Alike Related (litDrain s) (litDrain t) := by
  have hok := (decOk_iff s).mp h.ok
  obtain ⟨-, hagree⟩ := h.agree
  simp only [hd, hp] at hok hagree
  obtain ⟨hk, hw⟩ := hok
  obtain ⟨-, -, hkt, hmem⟩ := hagree
  obtain ⟨b, hb⟩ := (written_iff _ _).mp hw _ hk
  have hb' : readCell t.lbuf t.k.toNat = some b := by rw [← hkt, ← hmem _ hk, hb]
  simp only [litDrain, readLbuf, hb, hb']
  refine writeThen_alike h.related _ fun q same => ?_
  exact .next (drained_related ⟨h.mode, same, h.ok, h.agree⟩ hp (.inr hd))

theorem endFlush_alike : Alike Related (endFlush s) (endFlush t) := by
  refine flushThen_alike h.related fun q same => .next (related_of_idle nofun ?_)
  exact congrArg (fun r : State => { r with status := .ok }) same

theorem decTick_alike : Alike Related (decTick s) (decTick t) := by
  obtain ⟨hds, hagree⟩ := h.agree
  cases hd : s.dState <;> cases hp : s.dPhase <;> simp only [hd, hp] at hagree <;> simp only [decTick, ← hds, hd, hp]
  case readingHeader.fill | readingHeader.drain => exact fetchHeader_alike h
  case emittingLiteral.fill => simpa only [hagree] using litFill_alike h hd hp
  case emittingLiteral.drain => simpa only [hagree] using litDrain_alike h hd hp
  case emittingRun.fill => simpa only [hagree] using runFill_alike h hd hp
  case emittingRun.drain => simpa only [hagree] using runDrain_alike h hd hp
  case done.fill | done.drain => exact endFlush_alike h

end

/-! ### The spec's own step -/

theorem withinCap_zero (p : Params) : withinCap p 0 = true := by
  unfold withinCap
  split <;> simp

/-- Taking `start` forgets whatever the units' elements hold. -/
theorem command_alike {s t : State} (hs : blankUnits s = blankUnits t) (hb : s.status ≠ .busy) (d : Bool) :
    Alike Related (exec (decodeCommand d) s) (exec (decodeCommand d) t) := by
  have hb' : t.status ≠ .busy := (congrArg State.status hs :) ▸ hb
  rw [exec_decodeCommand d hb, exec_decodeCommand d hb']
  cases d with
  | false =>
    refine .next (related_of_encode rfl (congrArg (takeStart .encode) hs) ?_ ?_)
    · exact (encOk_iff _).mpr ⟨withinCap_zero s.par, rfl, trivial⟩
    · exact ⟨rfl, rfl, rfl, fun a ha => absurd ha (Nat.not_lt_zero a), trivial⟩
  | true => exact .next (related_of_decode rfl (congrArg (takeStart .decode) hs) rfl ⟨rfl, trivial⟩)

theorem blankUnits_deliver (p : HostInput) (s : State) : blankUnits (deliver p s) = deliver p (blankUnits s) := by
  unfold deliver
  split <;> rfl

/-- What is presented reaches both cores and touches neither unit. -/
theorem Related.presented {s t : State} (h : Related s t) (p : HostInput) (ps : List HostInput) :
    Related (deliver p { s with host := ps }) (deliver p { t with host := ps }) := by
  refine ⟨?_, fun he => ?_, fun hd => ?_⟩
  · rw [blankUnits_deliver, blankUnits_deliver]
    exact congrArg (fun r : State => deliver p { r with host := ps }) h.same
  · obtain ⟨hok, ha⟩ := h.enc (by simpa [encoding_iff] using he)
    unfold deliver
    split <;> exact ⟨hok, ha⟩
  · obtain ⟨hok, ha⟩ := h.dec (by simpa [decoding_iff] using hd)
    unfold deliver
    split <;> exact ⟨hok, ha⟩

theorem unitTick_alike {s t : State} (h : Related s t) (hb : s.status = .busy) :
    Alike Related (unitTick s) (unitTick t) := by
  have hm : s.mode = t.mode := (congrArg State.mode h.same :)
  unfold unitTick
  rw [← hm]
  cases hmode : s.mode with
  | encode =>
    obtain ⟨hok, ha⟩ := h.enc ((encoding_iff s).mpr ⟨hb, hmode⟩)
    exact encTick_alike ⟨hmode, h.same, hok, ha⟩
  | decode =>
    obtain ⟨hok, ha⟩ := h.dec ((decoding_iff s).mpr ⟨hb, hmode⟩)
    exact decTick_alike ⟨hmode, h.same, hok, ha⟩

theorem microStep_alike {s t : State} (h : Related s t) : Alike Related (microStep s) (microStep t) := by
  have hhost : s.host = t.host := (congrArg State.host h.same :)
  have hst : s.status = t.status := (congrArg State.status h.same :)
  have hp := h.presented (s.host.headD HostInput.low) s.host.tail
  unfold microStep
  rw [hostTurn_eq, hostTurn_eq, ← hhost]
  generalize s.host.headD HostInput.low = p at hp ⊢
  generalize s.host.tail = ps at hp ⊢
  by_cases hb : s.status = .busy
  · have hs : State.busy { s with host := ps } = true := decide_eq_true hb
    have ht : State.busy { t with host := ps } = true := decide_eq_true (hst ▸ hb)
    simp only [controlTurn, hs, ht, if_true]
    cases p.rst with
    | true => exact .refused _
    | false =>
      cases p.fresh with
      | true => exact .refused _
      | false => exact unitTick_alike hp (by simpa using hb)
  · have hs : State.busy { s with host := ps } = false := decide_eq_false hb
    have ht : State.busy { t with host := ps } = false := decide_eq_false (hst ▸ hb)
    simp only [controlTurn, hs, ht]
    cases p.rst with
    | true => exact .next (related_of_idle nofun (congrArg resetCore hp.same :))
    | false =>
      cases p.start with
      | false => exact .next hp
      | true =>
        have hidle := command_alike hp.same (by simpa using hb)
        cases p.decompress with
        | false => exact hidle false
        | true => exact hidle true

theorem microRun_alike (k : Nat) {s t : State} (h : Related s t) : Alike Related (microRun k s) (microRun k t) := by
  induction k generalizing s t with
  | zero => exact .next h
  | succ k ih =>
    rw [microRun_succ, microRun_succ]
    exact (microStep_alike h).andThen fun _ _ => ih

/-- Settles O59: taking `start` leaves related cores, whatever the units held before, and each of the spec's steps keeps
them so. -/
theorem invocationsAreIndependent : Obligations.InvocationsAreIndependent := by
  intro s1 s2 t1 t2 i k hs hb hi h1 h2
  obtain ⟨d, rfl⟩ : ∃ d, i = decodeCommand d := hi.elim (⟨false, ·⟩) (⟨true, ·⟩)
  have hstart := command_alike ((sameSurroundings_iff s1 s2).mp hs) hb d
  rw [h1, h2] at hstart
  cases hstart with
  | next h => exact (microRun_alike k h).observeRes

/-! ## A record executed to its end -/

/-- A step that drains a record: the byte issued is written and counted (R109, R110). -/
theorem decTick_drain {s : State} {b : Byte} {q : List OutAnswer} (hp : s.dPhase = .drain)
    (hissue : decIssues s = some (.outWrite b)) (hq : s.outQueue = .ok :: q) :
    decTick s = .next (drained (s.afterWrite b .ok q)) := by
  cases hd : s.dState <;> simp only [decIssues, hd, hp] at hissue <;> simp only [decTick, hd, hp]
  case emittingRun =>
    cases hissue
    exact writeThen_ok _ _ hq
  case emittingLiteral =>
    obtain ⟨b', hb, hbb⟩ := Option.map_eq_some_iff.mp hissue
    cases hbb
    simp only [litDrain, readLbuf, hb]
    exact writeThen_ok _ _ hq
  all_goals cases hissue

theorem decTick_drain_last {s : State} {b : Byte} {q : List OutAnswer} (hp : s.dPhase = .drain)
    (hissue : decIssues s = some (.outWrite b)) (hq : s.outQueue = .ok :: q) (hl : s.k + 1 = s.len) :
    decTick s = .next { s.afterWrite b .ok q with k := s.len, dState := .readingHeader } :=
  (decTick_drain hp hissue hq).trans (congrArg _ ((if_pos hl).trans (by rw [← hl]; rfl)))

theorem decTick_drain_more {s : State} {b : Byte} {q : List OutAnswer} (hp : s.dPhase = .drain)
    (hissue : decIssues s = some (.outWrite b)) (hq : s.outQueue = .ok :: q) (hl : s.k + 1 ≠ s.len) :
    decTick s = .next { s.afterWrite b .ok q with k := s.k + 1 } :=
  (decTick_drain hp hissue hq).trans (congrArg _ (if_neg hl))

/-- The record at hand drained to its end, `bytes` written. -/
def allDrained (bytes : List Byte) (q : List OutAnswer) (s : State) : State :=
  { s with
    k := s.len, dState := .readingHeader, outQueue := q
    events := s.events ++ bytes.map writeEvent, outBuffer := s.outBuffer ++ bytes }

theorem allDrained_cons (b : Byte) (bs : List Byte) (q' q : List OutAnswer) (s : State) :
    allDrained bs q { s.afterWrite b .ok q' with k := s.k + 1 } = allDrained (b :: bs) q s := by
  simp [allDrained, State.afterWrite, writeEvent]

/-- The decoder drains a record to its end where it issues `bytes`, one for each value of K from here to LEN. -/
theorem runWhile_drain {s : State} {q : List OutAnswer} (b : Byte) (bs : List Byte) (hdec : s.decoding = true)
    (hd : s.dState ≠ .readingHeader) (hp : s.dPhase = .drain) (hk : s.k.toNat + (bs.length + 1) = s.len.toNat)
    (hissue : ∀ j c, (b :: bs)[j]? = some c →
      decIssues { s with k := BitVec.ofNat 7 (s.k.toNat + j) } = some (.outWrite c))
    (hq : s.outQueue = List.replicate (bs.length + 1) .ok ++ q) :
    runWhile State.midRecord decTick (bs.length + 1) s = .next (allDrained (b :: bs) q s) := by
  induction bs generalizing b s with
  | nil =>
    have hlast : s.k + 1 = s.len := BitVec.eq_of_toNat_eq ((toNat_succ_of_lt (fill_index_lt hk)).trans hk)
    have hhead : decIssues s = some (.outWrite b) := by simpa using hissue 0 b rfl
    rw [runWhile_succ _ ((midRecord_iff s).mpr ⟨hdec, hd⟩) (decTick_drain_last hp hhead hq hlast)]
    rfl
  | cons c cs ih =>
    have hsucc := toNat_succ_of_lt (fill_index_lt hk)
    have hk' : (s.k + 1).toNat + (cs.length + 1) = s.len.toNat := by rw [List.length_cons] at hk; omega
    have hmore : s.k + 1 ≠ s.len := fun e => by rw [e] at hk'; omega
    have hhead : decIssues s = some (.outWrite b) := by simpa using hissue 0 b rfl
    rw [runWhile_succ _ ((midRecord_iff s).mpr ⟨hdec, hd⟩) (decTick_drain_more hp hhead hq hmore)]
    rw [← allDrained_cons b (c :: cs) (List.replicate (cs.length + 1) .ok ++ q) q s]
    refine ih c hdec hd hp hk' (fun j c' hj => ?_) rfl
    have hnext := hissue (j + 1) c' hj
    rwa [show s.k.toNat + (j + 1) = (s.k + 1).toNat + j by omega] at hnext

/-- RUN with an `Ok` for each copy (R109). -/
theorem exec_run_drained {s : State} {count : Len} {value : Byte} {q : List OutAnswer} (hdec : s.decoding = true)
    (hc : count ≠ 0) (hq : s.outQueue = List.replicate count.toNat .ok ++ q) :
    exec (.run count value) s =
      .next (allDrained (List.replicate count.toNat value) q (latchRun count value s)) := by
  obtain ⟨m, hm⟩ : ∃ m, count.toNat = m + 1 := ⟨count.toNat - 1, by have := len_pos_of_ne_zero hc; omega⟩
  have hexec : exec (.run count value) s = runWhile State.midRecord decTick count.toNat (latchRun count value s) :=
    if_pos hdec
  have hdrain := runWhile_drain (s := latchRun count value s) (q := q) value (List.replicate m value) hdec nofun rfl
    (by simp [hm]) (fun j c hj => ?_) (by simpa [hm] using hq)
  · rw [hexec, hm, List.replicate_succ]
    simpa only [List.length_replicate] using hdrain
  · rw [← List.replicate_succ] at hj
    obtain rfl := List.eq_of_mem_replicate (List.mem_of_getElem? hj)
    rfl

/-- LIT with an `Ok` for each byte (R110). -/
theorem exec_lit_drained {s : State} {body : List Byte} {q : List OutAnswer} (hdec : s.decoding = true)
    (hb : 1 ≤ body.length) (hb' : body.length ≤ Config.lenMax) (hq : s.outQueue = List.replicate body.length .ok ++ q) :
    exec (.lit body) s = .next (allDrained body q (latchLit body s)) := by
  have hexec : exec (.lit body) s = runWhile State.midRecord decTick body.length (latchLit body s) := if_pos hdec
  have hmax : body.length < 128 := Nat.lt_succ_of_le hb'
  cases body with
  | nil => cases hb
  | cons b bs =>
    have hlen : (BitVec.ofNat 7 (b :: bs).length).toNat = (b :: bs).length := Nat.mod_eq_of_lt hmax
    rw [hexec]
    refine runWhile_drain (s := latchLit (b :: bs) s) b bs hdec nofun rfl ?_ (fun j c hj => ?_) hq
    · simpa using hlen.symm
    · obtain ⟨hj', -⟩ := List.getElem?_eq_some_iff.mp hj
      have hcell : readCell (writeCells s.lbuf 0 (b :: bs)) j = some c := by
        simpa [hj] using readCell_writeCells_inside s.lbuf 0 j (b :: bs) hj'
      have hidx : (BitVec.ofNat 7 (0 + j)).toNat = j := by
        rw [Nat.zero_add]
        exact Nat.mod_eq_of_lt (hj'.trans hmax)
      exact congrArg (Option.map Primitive.outWrite) ((congrArg (readCell _) hidx).trans hcell)

/-- END with its flush answered `Ok` (R111). -/
theorem exec_endRec_flushed {s : State} {q : List OutAnswer} (flag : Bool) (hdec : s.decoding = true)
    (hq : s.outQueue = .ok :: q) :
    exec (.endRec flag) s = .next { (latchEnd s).afterFlush .ok q with status := .ok } := by
  have hexec : exec (.endRec flag) s = endFlush (latchEnd s) := if_pos hdec
  have hq' : (latchEnd s).outQueue = .ok :: q := hq
  rw [hexec]
  simp only [endFlush, flushThen, outFlush, hq']

/-! ### What was read and written -/

theorem filterMap_readByte_readEvent (bs : List Byte) : (bs.map readEvent).filterMap Event.readByte? = bs := by
  induction bs with
  | nil => rfl
  | cons b bs ih => exact congrArg (b :: ·) ih

theorem filterMap_wroteByte_readEvent (bs : List Byte) : (bs.map readEvent).filterMap Event.wroteByte? = [] := by
  induction bs with
  | nil => rfl
  | cons b bs ih => exact ih

theorem filterMap_readByte_writeEvent (bs : List Byte) : (bs.map writeEvent).filterMap Event.readByte? = [] := by
  induction bs with
  | nil => rfl
  | cons b bs ih => exact ih

theorem filterMap_wroteByte_writeEvent (bs : List Byte) :
    (bs.map writeEvent).filterMap Event.wroteByte? = bs := by
  induction bs with
  | nil => rfl
  | cons b bs ih => exact congrArg (b :: ·) ih

theorem allDrained_readTrace (bytes : List Byte) (q : List OutAnswer) (s : State) :
    (allDrained bytes q s).readTrace = s.readTrace := by
  simp only [State.readTrace, allDrained, List.filterMap_append, filterMap_readByte_writeEvent, List.append_nil]

theorem allDrained_writeTrace (bytes : List Byte) (q : List OutAnswer) (s : State) :
    (allDrained bytes q s).writeTrace = s.writeTrace ++ bytes := by
  simp only [State.writeTrace, allDrained, List.filterMap_append, filterMap_wroteByte_writeEvent]

/-- Of 127 answers `Ok`, the first `m`. -/
theorem replicate_127_eq {m : Nat} (hm : m ≤ 127) (r : List OutAnswer) :
    List.replicate 127 .ok ++ r = List.replicate m .ok ++ (List.replicate (127 - m) .ok ++ r) := by
  rw [← List.append_assoc, List.replicate_append_replicate, Nat.add_sub_of_le hm]

/-- A well-formed record with its writes or its flush answered `Ok`: it writes its expansion and reads nothing more. -/
theorem exec_record_traces {s : State} {i : Instr} {r : List OutAnswer} (hdec : s.decoding = true)
    (hi : i.isRecord = true) (hw : i.wellFormed = true) (hq : s.outQueue = List.replicate 127 .ok ++ r) :
    ∃ t, exec i s = .next t ∧ t.readTrace = s.readTrace ∧ t.writeTrace = s.writeTrace ++ expansion i ∧
      t.inQueue = s.inQueue := by
  cases i with
  | endRec flag =>
    refine ⟨_, exec_endRec_flushed flag hdec hq, ?_, ?_, rfl⟩
    · simp [State.readTrace, Event.readByte?]
    · simp [State.writeTrace, Event.wroteByte?, expansion]
  | run count value =>
    have hc : count ≠ 0 := by simpa [Instr.wellFormed] using hw
    have hq' := hq.trans (replicate_127_eq (Nat.le_of_lt_succ count.isLt) r)
    exact ⟨_, exec_run_drained hdec hc hq', allDrained_readTrace _ _ _, allDrained_writeTrace _ _ _, rfl⟩
  | lit body =>
    obtain ⟨hb, hb'⟩ : 1 ≤ body.length ∧ body.length ≤ Config.lenMax := of_decide_eq_true hw
    have hq' := hq.trans (replicate_127_eq hb' r)
    exact ⟨_, exec_lit_drained hdec hb hb' hq', allDrained_readTrace _ _ _, allDrained_writeTrace _ _ _, rfl⟩
  | encode | decode => cases hi

/-! ## The bytes of a record on the input stream -/

theorem leadingBytes_append (bs : List Byte) (q : List InAnswer) :
    leadingBytes (bs.map .byte ++ q) = bs ++ leadingBytes q := by
  induction bs with
  | nil => rfl
  | cons b bs ih => exact congrArg (b :: ·) ih

theorem hdrLen_hdrRun (c : Len) : hdrLen (hdrRun c) = c := by
  ext j hj
  simp [hdrLen, hdrRun, BitVec.getLsbD_eq_getElem hj, Nat.lt_succ_of_lt hj]

theorem hdrFlag_hdrRun (c : Len) : hdrFlag (hdrRun c) = false := by
  simp [hdrFlag, hdrRun]

theorem hdrFlag_hdrLit (l : Byte) : hdrFlag (hdrLit l) = true := by
  simp [hdrFlag, hdrLit, Config.litFlag]

theorem hdrLen_hdrLit (n : Nat) : hdrLen (hdrLit (BitVec.ofNat 8 n)) = BitVec.ofNat 7 n := by
  have hflag : ∀ j < 7, Config.litFlag.getLsbD j = false := by decide
  ext j hj
  rw [hdrLen, hdrLit, BitVec.getElem_extractLsb', Nat.zero_add, BitVec.getLsbD_or, hflag j hj,
    ← BitVec.getLsbD_eq_getElem hj, BitVec.getLsbD_ofNat, BitVec.getLsbD_ofNat]
  simp [Nat.lt_succ_of_lt hj, hj]

/-- A well-formed record is read back from its bytes, whatever follows (R62, R66 to R69). -/
theorem decodeRecord_recordBytes {i : Instr} (rest : List Byte) (hi : i.isRecord = true) (hw : i.wellFormed = true) :
    decodeRecord (recordBytes i ++ rest) = .ok (i, rest) := by
  cases i with
  | endRec flag => cases flag <;> rfl
  | run count value =>
    have hc : count ≠ 0 := by simpa [Instr.wellFormed] using hw
    have hclass : classify (hdrRun count) = .run := by
      rw [classify, hdrLen_hdrRun, if_neg hc, hdrFlag_hdrRun]
      rfl
    simp [recordBytes, encode, codeBytes, decodeRecord, hclass, hdrLen_hdrRun]
  | lit body =>
    obtain ⟨hb, hb'⟩ : 1 ≤ body.length ∧ body.length ≤ 127 := of_decide_eq_true hw
    have hlen : (BitVec.ofNat 7 body.length).toNat = body.length := Nat.mod_eq_of_lt (Nat.lt_succ_of_le hb')
    have h0 : BitVec.ofNat 7 body.length ≠ 0 := fun e =>
      Nat.ne_of_gt hb (hlen.symm.trans (congrArg BitVec.toNat e))
    have hclass : classify (hdrLit (BitVec.ofNat 8 body.length)) = .literal := by
      rw [classify, hdrLen_hdrLit, if_neg h0, hdrFlag_hdrLit]
      rfl
    simp [recordBytes, encode, codeBytes, decodeRecord, hclass, hdrLen_hdrLit, hlen]
  | encode | decode => cases hi

theorem recordBytes_length (i : Instr) : (recordBytes i).length = recordLength i := by
  cases i with
  | endRec flag => exact Laws.CodeLength.endRec flag
  | run count value => exact Laws.CodeLength.run count value
  | lit body => exact Laws.CodeLength.lit body
  | encode => exact Laws.CodeLength.encode
  | decode => exact Laws.CodeLength.decode

/-- In a running decode invocation at a header, a machine step reads the record that stands there and executes it. -/
theorem step_record {s s' : State} {i : Instr} {q : List InAnswer} (hturn : hostTurn s = .running s')
    (hm : s'.mode = .decode) (hd : s'.dState = .readingHeader) (hi : i.isRecord = true) (hw : i.wellFormed = true)
    (hq : s'.inQueue = (recordBytes i).map .byte ++ q) :
    step s = exec i { s' with inQueue := q, events := s'.events ++ (recordBytes i).map readEvent } := by
  have hrec : decodeRecord (leadingBytes s'.inQueue) = .ok (i, leadingBytes q) := by
    rw [hq, leadingBytes_append]
    exact decodeRecord_recordBytes _ hi hw
  rw [← takeBytes_bytes (recordBytes i) hq, recordBytes_length]
  simp only [step, nextAction, hturn, hm, decodeAction, hd, if_true, hrec]

/-- Settles O21: the record's bytes are read, and then it writes its expansion. -/
theorem recordAdvancesPositions : Obligations.RecordAdvancesPositions := by
  intro s i q r hb hm hd hh hi hw hin hout
  have hstep := step_record (hostTurn_quiet_busy hh hb) hm hd hi hw hin
  obtain ⟨t, ht, hread, hwrite, hinq⟩ := exec_record_traces
    (s := { s with inQueue := q, events := s.events ++ (recordBytes i).map readEvent })
    ((decoding_iff _).mpr ⟨hb, hm⟩) hi hw hout
  have hread' : t.readTrace = s.readTrace ++ recordBytes i := by
    rw [hread]
    simp only [State.readTrace, List.filterMap_append, filterMap_readByte_readEvent]
  have hwrite' : t.writeTrace = s.writeTrace ++ expansion i := by
    rw [hwrite]
    simp only [State.writeTrace, List.filterMap_append, filterMap_wroteByte_readEvent, List.append_nil]
  refine ⟨t, hstep.trans ht, ?_, ?_, hwrite', hinq⟩
  · rw [State.rpos, hread', List.length_append, recordBytes_length]
    rfl
  · rw [State.wpos, hwrite', List.length_append]
    rfl

end Sys2Proof.Machine

/-! PROOFS of the family 20_memory.md. A machine step taken apart into what the control block decides, the latch of a
record and the unit's own steps; from it the invariant through every step (O52), so that none faults (O53), the place of
the flush (O48) and the steps that are refused (O54); and the order of reads and writes in an encode invocation
(O47). -/

namespace Sys2Proof.Machine

/-! ## What is asked of an outcome -/

/-- A next state with `P`, a fault with `F`, or a refusal with `R`. -/
def Ends (P : State → Prop) (F : Fault → Prop) (R : Refusal → Prop) : Res → Prop
  | .next s => P s
  | .fault f => F f
  | .refused r => R r

section
variable {P : State → Prop} {F : Fault → Prop} {R : Refusal → Prop}

theorem ends_iff (r : Res) : Ends P F R r ↔
    (∀ t, r = .next t → P t) ∧ (∀ f, r = .fault f → F f) ∧ ∀ e, r = .refused e → R e := by
  cases r <;> simp [Ends]

theorem Ends.andThen {r : Res} {f : State → Res} (h : Ends P F R r) (hf : ∀ s, P s → Ends P F R (f s)) :
    Ends P F R (andThen r f) := by
  cases r with
  | next s => exact hf s h
  | fault e | refused e => exact h

/-- What every repeated step asks of its outcome, the repetition asks of its own. -/
theorem runWhile_ends {go : State → Bool} {tick : State → Res}
    (htick : ∀ s, go s = true → P s → Ends P F R (tick s)) (fuel : Nat) {s : State} (hs : P s) :
    Ends P F R (runWhile go tick fuel s) := by
  induction fuel generalizing s with
  | zero => exact hs
  | succ fuel ih =>
    cases hg : go s with
    | false => exact runWhile_stopped tick (fuel + 1) hg ▸ hs
    | true => exact runWhile_succ_eq tick fuel hg ▸ (htick s hg hs).andThen fun _ => ih

end

/-! ## A machine step of a decode invocation is made of the decoder's steps -/

/-- A record's fields in the decoder's registers, its bytes read (R108 to R110). -/
def latch : Instr → State → State
  | .endRec _ => latchEnd
  | .run count value => latchRun count value
  | .lit body => latchLit body
  | .encode => id
  | .decode => id

/-- The most steps a record takes once it is latched: END's flush, or one for each byte of the expansion. -/
def stepsLatched : Instr → Nat
  | .endRec _ => 1
  | .run count _ => count.toNat
  | .lit body => body.length
  | .encode => 0
  | .decode => 0

/-- In a running decode invocation a record executes as the decoder's own steps from its latched fields. -/
theorem exec_record_eq {i : Instr} {s : State} (hi : i.isRecord = true) (hs : s.decoding = true) :
    exec i s = runWhile State.midRecord decTick (stepsLatched i) (latch i s) := by
  cases i with
  | endRec flag =>
    have hmid : (latchEnd s).midRecord = true := (midRecord_iff _).mpr ⟨hs, nofun⟩
    have hexec : exec (.endRec flag) s = decTick (latchEnd s) := if_pos hs
    rw [hexec, stepsLatched, latch, runWhile_succ_eq decTick 0 hmid]
    cases decTick (latchEnd s) <;> rfl
  | run count value => exact if_pos hs
  | lit body => exact if_pos hs
  | encode | decode => cases hi

theorem wellFormed_of_decodeRecord {bytes rest : List Byte} {i : Instr} (h : decodeRecord bytes = .ok (i, rest)) :
    i.wellFormed = true := by
  rcases decodeRecord_ok h with ⟨b, -, -, rfl⟩ | ⟨b, v, -, h0, -, rfl⟩ | ⟨b, body, -, h0, -, hl, rfl⟩
  · rfl
  · exact bne_iff_ne.mpr h0
  · exact decide_eq_true ⟨hl ▸ len_pos_of_ne_zero h0, hl ▸ Nat.le_of_lt_succ (hdrLen b).isLt⟩

theorem takeBytes_reads {P : State → Prop} (hread : ∀ s a q, P s → P (s.afterRead a q)) (n : Nat) {s : State}
    (hs : P s) : P (takeBytes n s) := by
  induction n generalizing s with
  | zero => exact hs
  | succ n ih =>
    unfold takeBytes
    split
    · exact hs
    · exact ih (hread s _ _ hs)

/-- The machine step of a running decode invocation, the control block's turn taken: it is enough to look at the reads
of a record's bytes, at the latch, and at one step of the decoder. -/
theorem step_ends_of_decode {P : State → Prop} {F : Fault → Prop} {R : Refusal → Prop}
    (htick : ∀ s, s.decoding = true → P s → Ends P F R (decTick s))
    (hread : ∀ s a q, s.decoding = true → P s → P (s.afterRead a q))
    (hlatch : ∀ i s, i.isRecord = true → i.wellFormed = true → s.decoding = true → P s → P (latch i s))
    {s s' : State} (hturn : hostTurn s = .running s') (hdec : s'.decoding = true) (hs : P s') :
    Ends P F R (step s) := by
  have hrun (fuel : Nat) {u : State} (hu : P u) : Ends P F R (runWhile State.midRecord decTick fuel u) :=
    runWhile_ends (fun v hv => htick v ((midRecord_iff v).mp hv).1) fuel hu
  have hmode : s'.mode = .decode := ((decoding_iff s').mp hdec).2
  unfold step
  simp only [nextAction, hturn, hmode, decodeAction]
  by_cases hd : s'.dState = .readingHeader
  · rw [if_pos hd]
    cases hrec : decodeRecord (leadingBytes s'.inQueue) with
    | ok found =>
      obtain ⟨i, rest⟩ := found
      have hi := isRecord_of_decodeRecord hrec
      obtain ⟨hdec', hs'⟩ := takeBytes_reads (P := fun u => u.decoding = true ∧ P u)
        (fun u a q hu => ⟨hu.1, hread u a q hu.1 hu.2⟩) (recordLength i) ⟨hdec, hs⟩
      show Ends P F R (exec i _)
      exact exec_record_eq hi hdec' ▸ hrun _ (hlatch i _ hi (wellFormed_of_decodeRecord hrec) hdec' hs')
    | error e =>
      have htick' : fetchHeader s' = decTick s' := by simp only [decTick, hd]
      exact partialRecord_eq s' ▸ htick' ▸ (htick s' hdec hs).andThen fun _ => hrun 256
  · rw [if_neg hd]
    exact hrun 256 hs

/-! ## A machine step -/

/-- The sample of a step taken and what it presents delivered. -/
def sampled (s : State) : State := deliver (s.host.headD HostInput.low) { s with host := s.host.tail }

theorem hostTurn_settled {s t : State} (h : hostTurn s = .settled t) :
    t = resetCore (sampled s) ∨ t = sampled s := by
  rw [hostTurn_eq] at h
  exact (controlTurn_settled h).2.imp And.right fun ht => ht.2.2

theorem hostTurn_begin {s t : State} {d : Bool} (h : hostTurn s = .begin d t) : t.status ≠ .busy ∧ t = sampled s := by
  rw [hostTurn_eq] at h
  obtain ⟨hb, -, -, -, rfl⟩ := controlTurn_begin h
  exact ⟨by rwa [deliver_status], rfl⟩

theorem hostTurn_running {s t : State} (h : hostTurn s = .running t) : t.status = .busy ∧ t = sampled s := by
  rw [hostTurn_eq] at h
  obtain ⟨hb, -, -, rfl⟩ := controlTurn_running h
  exact ⟨by rwa [deliver_status], rfl⟩

/-- A machine step is what the control block decides, and in a running invocation the active unit's own steps. -/
theorem step_ends {P : State → Prop} {F : Fault → Prop} {R : Refusal → Prop}
    (htick : ∀ s, s.status = .busy → P s → Ends P F R (unitTick s))
    (hread : ∀ s a q, s.status = .busy → P s → P (s.afterRead a q))
    (hlatch : ∀ i s, i.isRecord = true → i.wellFormed = true → s.decoding = true → P s → P (latch i s))
    (hrefuse : ∀ e, R e) {s : State} (hsampled : P (sampled s)) (hreset : P (resetCore (sampled s)))
    (hcommand : ∀ d, (sampled s).status ≠ .busy → Ends P F R (exec (decodeCommand d) (sampled s))) :
    Ends P F R (step s) := by
  cases hturn : hostTurn s with
  | settled s' =>
    obtain rfl | rfl := hostTurn_settled hturn <;> simp only [step, nextAction, hturn]
    · exact hreset
    · exact hsampled
  | begin d s' =>
    obtain ⟨hidle, rfl⟩ := hostTurn_begin hturn
    simpa only [step, nextAction, hturn] using hcommand d hidle
  | running s' =>
    obtain ⟨hbusy, rfl⟩ := hostTurn_running hturn
    cases hm : (sampled s).mode with
    | encode => simpa only [step, nextAction, hturn, hm, unitTick] using htick _ hbusy hsampled
    | decode =>
      refine step_ends_of_decode (fun u hu hpu => ?_) (fun u a q hu => hread u a q ((decoding_iff u).mp hu).1) hlatch
        hturn ((decoding_iff _).mpr ⟨hbusy, hm⟩) hsampled
      obtain ⟨hbu, hmu⟩ := (decoding_iff u).mp hu
      simpa only [unitTick, hmu] using htick u hbu hpu
  | refuse e =>
    simp only [step, nextAction, hturn]
    exact hrefuse e

/-! ## What a step of the encoder can do -/

/-- The effects of a step that reads nothing. -/
inductive OutputEffect (s : State) : State → Prop where
  | silent : OutputEffect s s
  | wrote (b : Byte) (q : List OutAnswer) : OutputEffect s (s.afterWrite b .ok q)
  | writeFailed (b : Byte) (k : IoErrorKind) (q : List OutAnswer) :
      OutputEffect s ((s.afterWrite b (.fail k) q).raise .wrFail (.io k))
  | flushed (q : List OutAnswer) : OutputEffect s { s.afterFlush .ok q with status := .ok }
  | flushFailed (k : IoErrorKind) (q : List OutAnswer) :
      OutputEffect s ((s.afterFlush (.fail k) q).raise .flFail (.io k))

theorem Effect.output {s u : State} (h : Effect s u) (hread : ∀ a, u.events ≠ s.events ++ [.rd a]) :
    OutputEffect s u := by
  cases h with
  | silent => exact .silent
  | read a | eofRaised | readFailed => exact absurd rfl (hread _)
  | wrote b q => exact .wrote b q
  | writeFailed b k q => exact .writeFailed b k q
  | flushed q => exact .flushed q
  | flushFailed k q => exact .flushFailed k q

/-- The encoder issues `InRead()` in the load phase alone (R86). -/
theorem encIssues_inRead {s : State} (h : encIssues s = some .inRead) : s.eState = .load := by
  cases he : s.eState <;> simp only [encIssues, he] at h
  case load => rfl
  case txRun | txLit => split at h <;> simp at h
  all_goals cases h

/-- Past the load phase a step of ENC is one that reads nothing, the working registers aside. -/
theorem encTick_output {s t : State} (hs : s.eState ≠ .load) (h : encTick s = .next t) :
    ∃ u, OutputEffect s u ∧ blankEncRegs t = blankEncRegs u := by
  obtain ⟨u, hu, hblank⟩ := encTick_effect_of_loaded hs h
  refine ⟨u, hu.output fun a ha => ?_, hblank⟩
  have hevents : t.events = s.events ++ [.rd a] := (congrArg State.events hblank :).trans ha
  obtain ⟨-, hev | ⟨prim, e, hissue, hanswer, hev⟩⟩ := encTick_performs h
  · simp [hev] at hevents
  · obtain rfl : e = .rd a := by simpa [hev] using hevents
    cases prim with
    | inRead => exact hs (encIssues_inRead hissue)
    | outWrite | outFlush => cases hanswer

/-- Every way ENC.LOAD answers a next state (R89). -/
theorem encLoad_next {s t : State} (h : encLoad s = .next t) :
    t = s ∨
    (∃ b q, ibufHas s.par s.n = true ∧
      t = { s.afterRead (.byte b) q with ibuf := writeCell s.ibuf s.n b, n := s.n + 1 }) ∨
    (∃ q, t = { s.afterRead .eos q with i := 0, eState := .scan }) ∨
    ∃ k q, t = (s.afterRead (.fail k) q).raise .rdFail (.io k) := by
  rcases inRead_next h with ⟨-, rfl⟩ | ⟨a, q, -, h⟩
  · exact .inl rfl
  · cases a with
    | byte b =>
      dsimp only at h
      split at h
      · cases h
      · obtain ⟨hhas, h⟩ := writeIbuf_next h
        cases h
        exact .inr (.inl ⟨b, q, hhas, rfl⟩)
    | eos => cases h; exact .inr (.inr (.inl ⟨q, rfl⟩))
    | fail k => cases h; exact .inr (.inr (.inr ⟨k, q, rfl⟩))

/-! ## The parts of the invariant -/

/-- The invariant's part that is asked in every state: the memories and the control registers. -/
def BaseOk (s : State) : Prop := memOk s = true ∧ ctlOk s = true

theorem encAgree_refl (s : State) : EncAgree s s :=
  ⟨rfl, rfl, rfl, fun _ _ => rfl, by cases s.eState <;> simp⟩

theorem decAgree_refl (s : State) : DecAgree s s :=
  ⟨rfl, by cases hd : s.dState <;> cases hp : s.dPhase <;> simp⟩

/-- What the invariant asks of the units is that a core is related to itself. -/
theorem inv_iff (s : State) : s.inv = true ↔ BaseOk s ∧ Related s s := by
  have hunits : Related s s ↔ (s.encoding = true → encOk s = true) ∧ (s.decoding = true → decOk s = true) :=
    ⟨fun h => ⟨fun he => (h.enc he).1, fun hd => (h.dec hd).1⟩,
      fun h => ⟨rfl, fun he => ⟨h.1 he, encAgree_refl s⟩, fun hd => ⟨h.2 hd, decAgree_refl s⟩⟩⟩
  rw [hunits, BaseOk, State.inv]
  cases s.encoding <;> cases s.decoding <;> simp [and_assoc]

/-! ### The memories (R47) -/

theorem all_writeCell {m : Memory} {a : Nat} {b : Byte} {p : Nat → Bool} (hm : m.all (fun c => p c.1) = true)
    (ha : p a = true) : (writeCell m a b).all (fun c => p c.1) = true := by
  rw [List.all_eq_true] at hm ⊢
  intro c hc
  rcases mem_writeCell hc with rfl | hc
  · exact ha
  · exact hm c hc

theorem all_writeCells {m : Memory} {a : Nat} {bs : List Byte} {p : Nat → Bool} (hm : m.all (fun c => p c.1) = true)
    (ha : ∀ x, x < a + bs.length → p x = true) : (writeCells m a bs).all (fun c => p c.1) = true := by
  induction bs generalizing m a with
  | nil => exact hm
  | cons b bs ih =>
    rw [List.length_cons] at ha
    exact ih (all_writeCell hm (ha a (by omega))) fun x hx => ha x (by omega)

theorem written_writeCells (m : Memory) (bs : List Byte) : written (writeCells m 0 bs) bs.length = true := by
  refine (written_iff _ _).mpr fun a ha => ⟨bs[a], ?_⟩
  have hcell := readCell_writeCells_inside m 0 a bs ha
  rwa [Nat.zero_add, List.getElem?_eq_getElem ha] at hcell

theorem memOk_iff (s : State) : memOk s = true ↔
    (Memory.wf s.ibuf = true ∧ s.ibuf.all (fun c => ibufHas s.par c.1) = true) ∧
      Memory.wf s.lbuf = true ∧ s.lbuf.all (fun c => decide (c.1 < Config.lbufSize)) = true := by
  simp only [memOk, Bool.and_eq_true]
  tauto

theorem memOk_writeIbuf {s : State} {a : Nat} (b : Byte) (h : memOk s = true) (ha : ibufHas s.par a = true) :
    memOk { s with ibuf := writeCell s.ibuf a b } = true := by
  obtain ⟨⟨hwf, hall⟩, hl⟩ := (memOk_iff s).mp h
  exact (memOk_iff _).mpr ⟨⟨writeCell_wf a b hwf, all_writeCell hall ha⟩, hl⟩

theorem memOk_writeLbuf {s : State} {a : Nat} (b : Byte) (h : memOk s = true) (ha : a < Config.lbufSize) :
    memOk { s with lbuf := writeCell s.lbuf a b } = true := by
  obtain ⟨hi, hwf, hall⟩ := (memOk_iff s).mp h
  refine (memOk_iff _).mpr ⟨hi, writeCell_wf a b hwf, ?_⟩
  exact all_writeCell (p := fun x => decide (x < _)) hall (decide_eq_true ha)

/-! ### The control registers (R24, R25) -/

theorem ctlOk_iff {s : State} (hs : s.status ≠ .fail) : ctlOk s = true ↔ s.errCause = .noCause ∧ s.errKind = 0 := by
  simp [ctlOk, hs]

/-- Raising for a failing answer, or for the end of the input (R156). -/
theorem BaseOk.raise_io {s : State} (hs : BaseOk s) {c : ErrCause} (k : IoErrorKind) (hc : c ≠ .noCause)
    (heof : c.isEof = false) : BaseOk (s.raise c (.io k)) :=
  ⟨hs.1, by simp [ctlOk, hc, heof]⟩

theorem BaseOk.raise_eof {s : State} (hs : BaseOk s) {c : ErrCause} (heof : c.isEof = true) :
    BaseOk (s.raise c .unexpectedEof) := by
  have hc : c ≠ .noCause := fun h => by rw [h] at heof; cases heof
  exact ⟨hs.1, by simp [ctlOk, hc, errKindOf_unexpectedEof]⟩

/-- An invocation that ends in OK. -/
theorem BaseOk.ended_ok {s : State} (hs : BaseOk s) (hb : s.status = .busy) : BaseOk { s with status := .ok } := by
  have hctl := (ctlOk_iff (by rw [hb]; nofun)).mp hs.2
  exact ⟨hs.1, (ctlOk_iff (s := { s with status := .ok }) nofun).mpr hctl⟩

/-! ## A unit's step keeps the memories and the control registers good -/

section
variable {s t : State} (hs : BaseOk s)
include hs

theorem readThen_baseOk {c : ErrCause} {found : Byte → State → Res} (hc : c.isEof = true)
    (h : readThen c s found = .next t) (hf : ∀ b u, BaseOk u → found b u = .next t → BaseOk t) : BaseOk t := by
  rcases readThen_next h with ⟨-, rfl⟩ | ⟨b, q, -, h⟩ | ⟨q, -, rfl⟩ | ⟨k, q, -, rfl⟩
  · exact hs
  · exact hf b (s.afterRead _ q) hs h
  · exact BaseOk.raise_eof (s := s.afterRead _ q) hs hc
  · exact BaseOk.raise_io (s := s.afterRead _ q) hs k nofun rfl

theorem writeThen_baseOk {b : Byte} {done : State → Res} (h : writeThen b s done = .next t)
    (hd : ∀ u, BaseOk u → done u = .next t → BaseOk t) : BaseOk t := by
  rcases writeThen_next h with ⟨-, rfl⟩ | ⟨q, -, h⟩ | ⟨k, q, -, rfl⟩
  · exact hs
  · exact hd (s.afterWrite b .ok q) hs h
  · exact BaseOk.raise_io (s := s.afterWrite b _ q) hs k nofun rfl

theorem flushThen_baseOk {done : State → Res} (hb : s.status = .busy) (h : flushThen s done = .next t)
    (hd : ∀ u, BaseOk u → u.status = .busy → done u = .next t → BaseOk t) : BaseOk t := by
  rcases flushThen_next h with ⟨-, rfl⟩ | ⟨q, -, h⟩ | ⟨k, q, -, rfl⟩
  · exact hs
  · exact hd (s.afterFlush .ok q) hs hb h
  · exact BaseOk.raise_io (s := s.afterFlush (.fail k) q) hs k nofun rfl

theorem encLoad_baseOk (h : encLoad s = .next t) : BaseOk t := by
  rcases encLoad_next h with rfl | ⟨b, q, hhas, rfl⟩ | ⟨q, rfl⟩ | ⟨k, q, rfl⟩
  · exact hs
  · exact ⟨memOk_writeIbuf (s := s.afterRead _ q) b hs.1 hhas, hs.2⟩
  · exact hs
  · exact BaseOk.raise_io (s := s.afterRead _ q) hs k nofun rfl

theorem encTick_baseOk (hb : s.status = .busy) (h : encTick s = .next t) : BaseOk t := by
  by_cases he : s.eState = .load
  · exact encLoad_baseOk hs (by simpa only [encTick, he] using h)
  · obtain ⟨u, hu, hblank⟩ := encTick_output he h
    refine (congrArg BaseOk hblank).mpr ?_
    cases hu with
    | silent => exact hs
    | wrote b q => exact hs
    | writeFailed b k q => exact BaseOk.raise_io (s := s.afterWrite b (.fail k) q) hs k nofun rfl
    | flushed q => exact BaseOk.ended_ok (s := s.afterFlush .ok q) hs hb
    | flushFailed k q => exact BaseOk.raise_io (s := s.afterFlush (.fail k) q) hs k nofun rfl

theorem drained_baseOk : BaseOk (drained s) := by
  unfold drained
  split <;> exact hs

theorem decTick_baseOk (hb : s.status = .busy) (h : decTick s = .next t) : BaseOk t := by
  cases hd : s.dState <;> cases hp : s.dPhase <;> simp only [decTick, hd, hp] at h
  case readingHeader.fill | readingHeader.drain =>
    unfold fetchHeader rxHdr at h
    refine readThen_baseOk hs rfl h fun b u hu h => ?_
    dsimp only at h
    repeat' split at h
    all_goals cases h; exact hu
  case emittingLiteral.fill =>
    unfold litFill rxLitBody at h
    refine readThen_baseOk hs rfl h fun b u hu h => ?_
    obtain ⟨hk, h⟩ := writeLbuf_next h
    dsimp only at h
    split at h
    all_goals cases h; exact ⟨memOk_writeLbuf b hu.1 hk, hu.2⟩
  case emittingLiteral.drain =>
    obtain ⟨b, -, h⟩ := readLbuf_next h
    exact writeThen_baseOk hs h fun u hu h => by cases h; exact drained_baseOk hu
  case emittingRun.fill =>
    exact readThen_baseOk hs rfl (show rxRunVal s _ = _ from h) fun b u hu h => by cases h; exact hu
  case emittingRun.drain => exact writeThen_baseOk hs h fun u hu h => by cases h; exact drained_baseOk hu
  case done.fill | done.drain => exact flushThen_baseOk hs hb h fun u hu hbu h => by cases h; exact hu.ended_ok hbu

theorem unitTick_baseOk (hb : s.status = .busy) (h : unitTick s = .next t) : BaseOk t := by
  unfold unitTick at h
  split at h
  · exact encTick_baseOk hs hb h
  · exact decTick_baseOk hs hb h

end

/-! ## The invariant through a machine step -/

/-- The outcome the invariant promises: a next state with the invariant, or a refusal. -/
def InvEnds (r : Res) : Prop := Ends (fun t => t.inv = true) (fun _ => False) (fun _ => True) r

theorem invEnds_of_alike {r : Res} (hr : Alike Related r r) (hbase : ∀ t, r = .next t → BaseOk t) : InvEnds r := by
  cases r with
  | next t => cases hr with | next h => exact (inv_iff t).mpr ⟨hbase t rfl, h⟩
  | fault f => cases hr
  | refused e => trivial

theorem unitTick_invEnds {s : State} (hs : s.inv = true) (hb : s.status = .busy) : InvEnds (unitTick s) := by
  obtain ⟨hbase, hrel⟩ := (inv_iff s).mp hs
  exact invEnds_of_alike (unitTick_alike hrel hb) fun t => unitTick_baseOk hbase hb

theorem command_invEnds {s : State} (hs : BaseOk s) (hb : s.status ≠ .busy) (d : Bool) :
    InvEnds (exec (decodeCommand d) s) := by
  refine invEnds_of_alike (command_alike rfl hb d) fun t h => ?_
  rw [exec_decodeCommand d hb] at h
  cases h
  cases d <;> exact ⟨hs.1, rfl⟩

theorem latch_inv {i : Instr} {s : State} (hi : i.isRecord = true) (hw : i.wellFormed = true)
    (hdec : s.decoding = true) (hs : s.inv = true) : (latch i s).inv = true := by
  obtain ⟨⟨hmem, hctl⟩, -⟩ := (inv_iff s).mp hs
  obtain ⟨-, hm⟩ := (decoding_iff s).mp hdec
  cases i with
  | endRec flag =>
    have hok : decOk (latchEnd s) = true := (decOk_iff _).mpr rfl
    exact (inv_iff _).mpr ⟨⟨hmem, hctl⟩, related_of_decode hm rfl hok (decAgree_refl _)⟩
  | run count value =>
    have hc : count ≠ 0 := by simpa [Instr.wellFormed] using hw
    have hok : decOk (latchRun count value s) = true := (decOk_iff _).mpr (len_pos_of_ne_zero hc)
    exact (inv_iff _).mpr ⟨⟨hmem, hctl⟩, related_of_decode hm rfl hok (decAgree_refl _)⟩
  | lit body =>
    obtain ⟨h1, h127⟩ : 1 ≤ body.length ∧ body.length ≤ 127 := of_decide_eq_true hw
    have hlen : (BitVec.ofNat 7 body.length).toNat = body.length := Nat.mod_eq_of_lt (Nat.lt_succ_of_le h127)
    have hok : decOk (latchLit body s) = true := by
      refine (decOk_iff _).mpr ?_
      simpa [hlen, written_writeCells] using Nat.lt_of_succ_le h1
    obtain ⟨hib, hwf, hall⟩ := (memOk_iff s).mp hmem
    have hmem' : memOk (latchLit body s) = true := by
      refine (memOk_iff _).mpr ⟨hib, writeCells_wf 0 body hwf, ?_⟩
      refine all_writeCells (p := fun x => decide (x < _)) hall fun x hx => decide_eq_true ?_
      exact lt_of_lt_of_le (by simpa using hx) h127
    exact (inv_iff _).mpr ⟨⟨hmem', hctl⟩, related_of_decode hm rfl hok (decAgree_refl _)⟩
  | encode | decode => cases hi

theorem inv_sampled (s : State) : (sampled s).inv = s.inv := by
  unfold sampled deliver
  split <;> rfl

/-- From the invariant a machine step neither faults nor leaves it. -/
theorem step_invEnds {s : State} (hs : s.inv = true) : InvEnds (step s) := by
  have hsampled : (sampled s).inv = true := (inv_sampled s).trans hs
  exact step_ends (fun u hb hu => unitTick_invEnds hu hb) (fun u a q _ hu => hu) (fun i u => latch_inv)
    (fun _ => trivial) hsampled rfl fun d hidle => command_invEnds ((inv_iff _).mp hsampled).1 hidle d

/-- Settles O52: the invariant is kept by what the control block does, by a unit's step and by a record's latch. -/
theorem stepKeepsInvariant : Obligations.StepKeepsInvariant := by
  intro s t hs h
  have hend := step_invEnds hs
  rwa [h] at hend

/-- Settles O53: of the outcomes the invariant leaves, none is a fault. -/
theorem noFaultUnderInvariant : Obligations.NoFaultUnderInvariant := by
  intro s f hs h
  have hend := step_invEnds hs
  rwa [h] at hend

/-! ## The order of events in an encode invocation (R54) -/

theorem encodeOrder_sampled (s : State) : EncodeOrder (sampled s) = EncodeOrder s := by
  unfold sampled deliver
  split <;> rfl

theorem encLitAcc_eState {s t : State} (h : encLitAcc s = .next t) : t.eState = s.eState ∨ t.eState = .txLit := by
  unfold encLitAcc at h
  repeat' split at h
  all_goals cases h
  all_goals simp

/-- A write of the encoder past the load phase does not take it back there. -/
theorem writeThen_past_load {s t : State} {b : Byte} {done : State → Res} (hs : s.eState ≠ .load)
    (h : writeThen b s done = .next t) (hd : ∀ u, u.eState ≠ .load → done u = .next t → t.eState ≠ .load) :
    t.eState ≠ .load := by
  rcases writeThen_next h with ⟨-, rfl⟩ | ⟨q, -, h⟩ | ⟨k, q, -, rfl⟩
  · exact hs
  · exact hd (s.afterWrite b .ok q) hs h
  · exact hs

/-- The load phase is not entered again (R103). -/
theorem encTick_past_load {s t : State} (hs : s.eState ≠ .load) (h : encTick s = .next t) : t.eState ≠ .load := by
  cases he : s.eState <;> simp only [encTick, he] at h
  case load => exact absurd he hs
  case scan =>
    unfold encScan at h
    repeat' split at h
    all_goals cases h
    all_goals nofun
  case litAcc => rcases encLitAcc_eState h with ht | ht <;> simp [ht, he]
  case txRun =>
    unfold encEmitRun txRun at h
    split at h
    · exact writeThen_past_load hs h fun u hu h => by cases h; exact hu
    · obtain ⟨b, -, h⟩ := readIbuf_next h
      exact writeThen_past_load hs h fun u hu h => by cases h; nofun
  case txLit =>
    unfold encEmitLit txLit at h
    split at h
    · exact writeThen_past_load hs h fun u hu h => by cases h; exact hu
    · obtain ⟨b, -, h⟩ := readIbuf_next h
      refine writeThen_past_load hs h fun u hu h => ?_
      dsimp only at h
      split at h <;> cases h
      · nofun
      · exact hu
  case txEnd => exact writeThen_past_load hs (show txEnd s _ = _ from h) fun u hu h => by cases h; nofun
  case flush =>
    rcases flushThen_next (show flushThen s _ = _ from h) with ⟨-, rfl⟩ | ⟨q, -, h⟩ | ⟨k, q, -, rfl⟩
    · exact hs
    · cases h; nofun
    · exact hs
  case halt => cases h; exact hs

/-- An effect that reads nothing makes no read event and no read failure. -/
theorem OutputEffect.no_read {s u : State} (h : OutputEffect s u) (hs : s.errCause ≠ .rdFail) :
    u.errCause ≠ .rdFail ∧ ∃ w, u.events = s.events ++ w ∧ ∀ e ∈ w, e.isRead = false := by
  cases h with
  | silent => exact ⟨hs, [], by simp, by simp⟩
  | wrote | flushed => exact ⟨hs, _, rfl, by simp [Event.isRead]⟩
  | writeFailed | flushFailed => exact ⟨nofun, _, rfl, by simp [Event.isRead]⟩

/-- The load phase: reads of bytes, then `Eos` or a failing read. -/
theorem encLoad_encodeOrder {s t : State} {bs : List Byte} (hb : s.status = .busy) (he : s.eState = .load)
    (hc : s.errCause = .noCause) (hev : s.events = bs.map readEvent) (h : encLoad s = .next t) : EncodeOrder t := by
  intro _ _
  rcases encLoad_next h with rfl | ⟨b, q, -, rfl⟩ | ⟨q, rfl⟩ | ⟨k, q, rfl⟩
  · exact ⟨bs, .inl ⟨hb, he, hev⟩⟩
  · exact ⟨bs ++ [b], .inl ⟨hb, he, by simp [hev, readEvent]⟩⟩
  · exact ⟨bs, .inr (.inr ⟨nofun, by simp [hc], [], by simp [hev], by simp⟩)⟩
  · exact ⟨bs, .inr (.inl ⟨rfl, rfl, k, by simp [hev]⟩)⟩

/-- Past the load phase: nothing more is read. -/
theorem encTick_encodeOrder {s t : State} {bs : List Byte} {w : List Event} (he : s.eState ≠ .load)
    (hc : s.errCause ≠ .rdFail) (hev : s.events = bs.map readEvent ++ .rd .eos :: w)
    (hw : ∀ e ∈ w, e.isRead = false) (h : encTick s = .next t) : EncodeOrder t := by
  intro _ _
  obtain ⟨u, hu, hblank⟩ := encTick_output he h
  obtain ⟨hcause, w', hevents, hw'⟩ := hu.no_read hc
  have hcause' : t.errCause = u.errCause := (congrArg State.errCause hblank :)
  have hevents' : t.events = u.events := (congrArg State.events hblank :)
  refine ⟨bs, .inr (.inr ⟨fun _ => encTick_past_load he h, hcause' ▸ hcause, w ++ w', ?_, fun e hmem => ?_⟩)⟩
  · rw [hevents', hevents, hev, List.append_assoc, List.cons_append]
  · exact (List.mem_append.mp hmem).elim (hw e) (hw' e)

/-- A machine step of a running decode invocation leaves MODE. -/
theorem step_mode_of_decode {s s' t : State} (hturn : hostTurn s = .running s') (hm : s'.mode = .decode)
    (h : step s = .next t) : t.mode = .decode := by
  refine step_keeps (P := fun s => s.mode = .decode) (fun t u hb hu => ?_) (fun s u hu hs => ?_) (fun _ hs => ?_)
    (fun _ _ hs => ?_) (fun _ hs => ?_) h
  · exact (congrArg State.mode hb :).trans hu
  · exact (congrArg State.mode hu.blankIo_eq :).trans hs
  · cases hturn.symm.trans hs
  · cases hturn.symm.trans hs
  · cases hturn.symm.trans hs
    exact hm

/-- Settles O47: by what a machine step can be; a running encode invocation is in its load phase or past it. -/
theorem readsBeforeWrites : Obligations.ReadsBeforeWrites := by
  intro s t hinv hs h
  have hs : EncodeOrder (sampled s) := encodeOrder_sampled s ▸ hs
  rcases step_next h with hturn | ⟨d, s', hturn, h⟩ | ⟨s', hturn, ⟨hm, h⟩ | ⟨hm, -⟩⟩
  · obtain rfl | rfl := hostTurn_settled hturn
    · exact fun _ hidle => absurd rfl hidle
    · exact hs
  · obtain ⟨hidle, -⟩ := hostTurn_begin hturn
    rw [exec_decodeCommand d hidle] at h
    cases h
    cases d with
    | false => exact fun _ _ => ⟨[], .inl ⟨rfl, rfl, rfl⟩⟩
    | true => exact nofun
  · obtain ⟨hb, rfl⟩ := hostTurn_running hturn
    obtain ⟨⟨-, hctl⟩, -⟩ := (inv_iff _).mp ((inv_sampled s).trans hinv)
    obtain ⟨hc, -⟩ := (ctlOk_iff (by rw [hb]; nofun)).mp hctl
    obtain ⟨bs, ⟨-, he, hev⟩ | ⟨hfail, -⟩ | ⟨he, hcause, w, hev, hw⟩⟩ := hs hm (by rw [hb]; nofun)
    · exact encLoad_encodeOrder hb he hc hev (by simpa only [encTick, he] using h)
    · cases hb.symm.trans hfail
    · exact encTick_encodeOrder (he hb) hcause hev hw h
  · exact fun hmt => absurd (hmt.symm.trans (step_mode_of_decode hturn hm h)) nofun

/-! ## The flush (R56) -/

theorem flushOnce_sampled (s : State) : FlushOnce (sampled s) = FlushOnce s := by
  unfold sampled deliver
  split <;> rfl

/-- One event more, and it is not a flush. -/
theorem FlushOnce.append {s u : State} {e : Event} (hs : FlushOnce s) (hb : s.status = .busy) (he : e.isFlush = false)
    (hu : u.events = s.events ++ [e]) (hok : u.status ≠ .ok) : FlushOnce u := by
  refine ⟨fun _ => ?_, fun h => absurd h hok⟩
  rw [hu]
  exact List.forall_mem_append.mpr ⟨hs.1 hb, by simpa using he⟩

theorem FlushOnce.effect {s u : State} (hs : FlushOnce s) (hb : s.status = .busy) (h : Effect s u) : FlushOnce u := by
  have hok : s.status ≠ .ok := by rw [hb]; nofun
  cases h with
  | silent => exact hs
  | read a q => exact hs.append hb (e := .rd a) rfl rfl hok
  | wrote b q => exact hs.append hb (e := .wr b .ok) rfl rfl hok
  | flushed q => exact ⟨nofun, fun _ => ⟨s.events, rfl, hs.1 hb⟩⟩
  | eofRaised | readFailed | writeFailed | flushFailed => exact ⟨nofun, nofun⟩

theorem FlushOnce.unitTick {s t : State} (hs : FlushOnce s) (hb : s.status = .busy) (h : unitTick s = .next t) :
    FlushOnce t := by
  obtain ⟨u, hu, hblank⟩ := unitTick_effect h
  exact (congrArg FlushOnce hblank).mpr (show FlushOnce u from hs.effect hb hu)

theorem latch_flushOnce (i : Instr) (s : State) : FlushOnce (latch i s) = FlushOnce s := by
  cases i <;> rfl

/-- Settles O48: a unit's step makes at most one event, and the flush answered `Ok` ends the invocation. -/
theorem flushIsLast : Obligations.FlushIsLast := by
  intro s t hs h
  have hsampled : FlushOnce (sampled s) := flushOnce_sampled s ▸ hs
  have hend : Ends FlushOnce (fun _ => True) (fun _ => True) (step s) := by
    refine step_ends (fun u hb hu => ?_) (fun u a q hb hu => ?_) (fun i u _ _ _ hu => ?_) (fun _ => trivial) hsampled
      ⟨nofun, nofun⟩ fun d hidle => ?_
    · exact (ends_iff _).mpr ⟨fun v => hu.unitTick hb, fun _ _ => trivial, fun _ _ => trivial⟩
    · exact hu.append hb (e := .rd a) rfl rfl (by rw [State.afterRead_status, hb]; nofun)
    · exact latch_flushOnce i u ▸ hu
    · rw [exec_decodeCommand d hidle]
      cases d <;> exact ⟨fun _ _ he => absurd he List.not_mem_nil, nofun⟩
  rwa [h] at hend

/-! ## The refusals (R50, R169, R178) -/

section
variable {s : State} {r : Refusal}

theorem readThen_refused {c : ErrCause} {found : Byte → State → Res} (h : readThen c s found = .refused r) :
    ∃ b u, found b u = .refused r := by
  unfold readThen inRead at h
  split at h
  · cases h
  · dsimp only at h
    split at h
    · exact ⟨_, _, h⟩
    all_goals cases h

theorem writeThen_refused {b : Byte} {done : State → Res} (h : writeThen b s done = .refused r) :
    ∃ u, done u = .refused r := by
  unfold writeThen outWrite at h
  split at h
  · cases h
  · dsimp only at h
    split at h
    · exact ⟨_, h⟩
    · cases h

theorem flushThen_refused {done : State → Res} (h : flushThen s done = .refused r) : ∃ u, done u = .refused r := by
  unfold flushThen outFlush at h
  split at h
  · cases h
  · dsimp only at h
    split at h
    · exact ⟨_, h⟩
    · cases h

theorem readIbuf_refused {a : Nat} {use : Byte → Res} (h : readIbuf s a use = .refused r) :
    ∃ b, use b = .refused r := by
  unfold readIbuf at h
  split at h
  · exact ⟨_, h⟩
  · cases h

theorem readLbuf_refused {a : Nat} {use : Byte → Res} (h : readLbuf s a use = .refused r) :
    ∃ b, use b = .refused r := by
  unfold readLbuf at h
  split at h
  · exact ⟨_, h⟩
  · cases h

theorem writeLbuf_refused {a : Nat} {b : Byte} {rest : State → Res} (h : writeLbuf s a b rest = .refused r) :
    ∃ u, rest u = .refused r := by
  unfold writeLbuf at h
  split at h
  · exact ⟨_, h⟩
  · cases h

/-- ENC.LOAD is refused exactly by a byte beyond a finite IBUF_CAP (R50). -/
theorem encLoad_refused_iff : encLoad s = .refused r ↔
    r = .ibufFull ∧ s.par.ibufCap = some s.n ∧ ∃ b q, s.inQueue = .byte b :: q := by
  unfold encLoad inRead
  constructor
  · intro h
    split at h
    · cases h
    · rename_i a q hq
      cases a with
      | byte b =>
        dsimp only at h
        split at h
        · cases h
          exact ⟨rfl, ‹_›, b, q, hq⟩
        · unfold writeIbuf at h
          split at h <;> cases h
      | eos | fail k => cases h
  · rintro ⟨rfl, hcap, b, q, hq⟩
    simp [hq, hcap]

end

/-- The encoder's other steps are never refused. -/
theorem encTick_refused_iff {s : State} {r : Refusal} : encTick s = .refused r ↔
    s.eState = .load ∧ r = .ibufFull ∧ s.par.ibufCap = some s.n ∧ ∃ b q, s.inQueue = .byte b :: q := by
  rw [← encLoad_refused_iff]
  constructor
  · intro h
    cases he : s.eState <;> simp only [encTick, he] at h
    case load => exact ⟨rfl, h⟩
    case scan =>
      unfold encScan at h
      repeat' split at h
      all_goals cases h
    case litAcc =>
      unfold encLitAcc at h
      repeat' split at h
      all_goals cases h
    case txRun =>
      unfold encEmitRun txRun at h
      split at h
      · obtain ⟨u, h⟩ := writeThen_refused h
        cases h
      · obtain ⟨b, h⟩ := readIbuf_refused h
        obtain ⟨u, h⟩ := writeThen_refused h
        cases h
    case txLit =>
      unfold encEmitLit txLit at h
      split at h
      · obtain ⟨u, h⟩ := writeThen_refused h
        cases h
      · obtain ⟨b, h⟩ := readIbuf_refused h
        obtain ⟨u, h⟩ := writeThen_refused h
        dsimp only at h
        split at h <;> cases h
    case txEnd =>
      obtain ⟨u, h⟩ := writeThen_refused (show txEnd s _ = _ from h)
      cases h
    case flush =>
      obtain ⟨u, h⟩ := flushThen_refused h
      cases h
    case halt => cases h
  · rintro ⟨he, h⟩
    simpa only [encTick, he] using h

/-- No step of the decoder is refused. -/
theorem decTick_not_refused (s : State) (r : Refusal) : decTick s ≠ .refused r := by
  intro h
  cases hd : s.dState <;> cases hp : s.dPhase <;> simp only [decTick, hd, hp] at h
  case readingHeader.fill | readingHeader.drain =>
    obtain ⟨b, u, h⟩ := readThen_refused (show rxHdr s _ = _ from h)
    dsimp only at h
    repeat' split at h
    all_goals cases h
  case emittingLiteral.fill =>
    obtain ⟨b, u, h⟩ := readThen_refused (show rxLitBody s _ = _ from h)
    obtain ⟨v, h⟩ := writeLbuf_refused h
    dsimp only at h
    split at h <;> cases h
  case emittingLiteral.drain =>
    obtain ⟨b, h⟩ := readLbuf_refused h
    obtain ⟨u, h⟩ := writeThen_refused h
    cases h
  case emittingRun.fill =>
    obtain ⟨b, u, h⟩ := readThen_refused (show rxRunVal s _ = _ from h)
    cases h
  case emittingRun.drain =>
    obtain ⟨u, h⟩ := writeThen_refused h
    cases h
  case done.fill | done.drain =>
    obtain ⟨u, h⟩ := flushThen_refused h
    cases h

theorem step_not_refused_of_decode {s s' : State} (hturn : hostTurn s = .running s') (hm : s'.mode = .decode)
    (r : Refusal) : step s ≠ .refused r := by
  have hend : Ends (fun _ => True) (fun _ => True) (fun _ => False) (step s) := by
    refine step_ends_of_decode (fun u _ _ => (ends_iff _).mpr ?_) (fun _ _ _ _ _ => trivial)
      (fun _ _ _ _ _ _ => trivial) hturn ((decoding_iff s').mpr ⟨(hostTurn_running hturn).1, hm⟩) trivial
    exact ⟨fun _ _ => trivial, fun _ _ => trivial, decTick_not_refused u⟩
  intro h
  rwa [h] at hend

theorem controlTurn_refuse_iff {p : HostInput} {s : State} {r : Refusal} : controlTurn p s = .refuse r ↔
    s.status = .busy ∧ ((r = .resetWhileBusy ∧ p.rst = true) ∨
      (r = .streamsReplaced ∧ p.rst = false ∧ p.fresh = true)) := by
  by_cases hb : s.status = .busy
  · have hbusy : s.busy = true := decide_eq_true hb
    cases hr : p.rst <;> cases hf : p.fresh <;> simp [controlTurn, hb, hbusy, hr, hf, eq_comm]
  · have hidle : s.busy = false := decide_eq_false hb
    cases hr : p.rst <;> cases hs : p.start <;> simp [controlTurn, hb, hidle, hr, hs]

/-- What the control block refuses (R169, R178). -/
theorem hostTurn_refuse_iff (s : State) (r : Refusal) : hostTurn s = .refuse r ↔
    (r = .resetWhileBusy ∧ s.status = .busy ∧ ∃ p ps, s.host = p :: ps ∧ p.rst = true) ∨
    (r = .streamsReplaced ∧ s.status = .busy ∧ ∃ p ps, s.host = p :: ps ∧ p.rst = false ∧ p.fresh = true) := by
  rw [hostTurn_eq, controlTurn_refuse_iff]
  cases hh : s.host with
  | nil => simp [HostInput.low]
  | cons p ps =>
    simp only [List.headD_cons, List.cons.injEq, and_assoc, exists_and_left, exists_eq_left']
    tauto

/-- The machine step is refused by the control block or by the encoder. -/
theorem step_refused_iff (s : State) (r : Refusal) : step s = .refused r ↔
    hostTurn s = .refuse r ∨ ∃ s1, hostTurn s = .running s1 ∧ s1.mode = .encode ∧ encTick s1 = .refused r := by
  cases hturn : hostTurn s with
  | settled s' => simp [step, nextAction, hturn]
  | begin d s' =>
    have hexec := exec_decodeCommand d (hostTurn_begin hturn).1
    simp [step, nextAction, hturn, hexec]
  | running s' =>
    cases hm : s'.mode with
    | encode => simp [step, nextAction, hturn, hm]
    | decode => simp [step_not_refused_of_decode hturn hm, hm]
  | refuse e => simp [step, nextAction, hturn]

/-- Settles O54: what the control block refuses, and what ENC.LOAD does. -/
theorem refusalsAreTheSpecs : Obligations.RefusalsAreTheSpecs := by
  intro s r
  rw [step_refused_iff, hostTurn_refuse_iff, or_assoc]
  simp only [encTick_refused_iff]
  exact or_congr Iff.rfl (or_congr Iff.rfl
    ⟨fun ⟨s1, hturn, hm, he, hr, hfull⟩ => ⟨hr, s1, hturn, hm, he, hfull⟩,
      fun ⟨hr, s1, hturn, hm, he, hfull⟩ => ⟨s1, hturn, hm, he, hr, hfull⟩⟩)

end Sys2Proof.Machine

/-! PROOFS of the family 30_encoding.md. The header's two fields as arithmetic on its value (R65, R66), which header has
which class (R72), and a header put together again from its fields; from these: decode and encode are each other's
inverse (O1, O2), the header tells the length (O5), and no header is rejected (O6). -/

namespace Sys2Proof.Machine

/-! ## The fields of a header -/

theorem hdrLen_toNat (h : Byte) : (hdrLen h).toNat = h.toNat % 128 := by
  simp [hdrLen]

theorem hdrFlag_eq_decide (h : Byte) : hdrFlag h = decide (128 ≤ h.toNat) :=
  (BitVec.msb_eq_getLsbD_last h).symm.trans (BitVec.msb_eq_decide h)

theorem hdrRun_toNat (c : Len) : (hdrRun c).toNat = c.toNat :=
  BitVec.toNat_setWidth_of_le (by decide)

theorem hdrLit_toNat {l : Byte} (hl : l.toNat < 128) : (hdrLit l).toNat = 128 + l.toNat := by
  rw [hdrLit, BitVec.toNat_or]
  exact (Nat.two_pow_add_eq_or_of_lt (i := 7) hl 1).symm

/-- A header with a clear flag is the run header of its own length field. -/
theorem hdrRun_hdrLen {h : Byte} (hf : hdrFlag h = false) : hdrRun (hdrLen h) = h := by
  have hlt : ¬ 128 ≤ h.toNat := of_decide_eq_false (hdrFlag_eq_decide h ▸ hf)
  refine BitVec.eq_of_toNat_eq ?_
  rw [hdrRun_toNat, hdrLen_toNat, Nat.mod_eq_of_lt (Nat.lt_of_not_le hlt)]

/-- A header with the flag set is the literal header of its own length field. -/
theorem hdrLit_hdrLen {h : Byte} (hf : hdrFlag h = true) : hdrLit (BitVec.ofNat 8 (hdrLen h).toNat) = h := by
  have hle : 128 ≤ h.toNat := of_decide_eq_true (hdrFlag_eq_decide h ▸ hf)
  have hlen : (BitVec.ofNat 8 (hdrLen h).toNat).toNat = h.toNat - 128 := by
    rw [BitVec.toNat_ofNat, hdrLen_toNat]
    have := h.isLt
    omega
  refine BitVec.eq_of_toNat_eq ?_
  rw [hdrLit_toNat (by have := h.isLt; omega), hlen, Nat.add_sub_cancel' hle]

/-- A header of length 0 is 0x00 or 0x80, as its flag says (R69, R76). -/
theorem endHeader_eq {h : Byte} (h0 : hdrLen h = 0) : (if hdrFlag h then hdrLit 0 else hdrEnd) = h := by
  cases hf : hdrFlag h with
  | false =>
    have h' := hdrRun_hdrLen hf
    rwa [h0] at h'
  | true =>
    have h' := hdrLit_hdrLen hf
    rwa [h0] at h'

/-! ## The class of a header (R72) -/

theorem classify_ending {h : Byte} (h0 : hdrLen h = 0) : classify h = .ending := if_pos h0

theorem classify_run {h : Byte} (h0 : hdrLen h ≠ 0) (hf : hdrFlag h = false) : classify h = .run := by
  rw [classify, if_neg h0, hf]
  rfl

theorem classify_literal {h : Byte} (h0 : hdrLen h ≠ 0) (hf : hdrFlag h = true) : classify h = .literal := by
  rw [classify, if_neg h0, hf]
  rfl

/-- Settles O3: the class follows from the header's value, and so does the length. -/
theorem headerClassification : Obligations.HeaderClassification := by
  intro h
  have hlt := h.isLt
  refine ⟨?_, fun ⟨hpos, hle⟩ => ?_, fun hle => ?_⟩
  · rintro (rfl | rfl) <;> exact ⟨rfl, rfl⟩
  · have hlen : (hdrLen h).toNat = h.toNat := hdrLen_toNat h ▸ Nat.mod_eq_of_lt (Nat.lt_succ_of_le hle)
    have h0 : hdrLen h ≠ 0 := by bv_omega
    exact ⟨classify_run h0 (hdrFlag_eq_decide h ▸ decide_eq_false (by omega)), hlen⟩
  · have hlen : (hdrLen h).toNat + 0x80 = h.toNat := by rw [hdrLen_toNat]; omega
    have h0 : hdrLen h ≠ 0 := by bv_omega
    exact ⟨classify_literal h0 (hdrFlag_eq_decide h ▸ decide_eq_true (by omega)), hlen⟩

/-- Settles O4: a run header is the count, a literal header is 128 and the length. -/
theorem headerAssembly : Obligations.HeaderAssembly := by
  refine ⟨fun c => ⟨hdrRun_toNat c, hdrFlag_hdrRun c⟩, fun l _ hl => ?_, rfl, rfl⟩
  have hval := hdrLit_toNat (Nat.lt_succ_of_le hl)
  refine ⟨hval, hdrFlag_hdrLit l, ?_⟩
  rw [hdrLen_toNat, hval, Nat.add_mod_left, Nat.mod_eq_of_lt (Nat.lt_succ_of_le hl)]

/-! ## Decode and encode -/

/-- The code of a record is the bytes of the record. -/
theorem decode_encode_of_isRecord {i : Instr} (hi : i.isRecord = true) :
    decode (encode i) = decodeRecord (recordBytes i) := by
  cases i with
  | endRec | run | lit => rfl
  | encode | decode => cases hi

/-- Settles O1: a record is read back with nothing after it, and a command from its flag. -/
theorem decodeOfEncode : Obligations.DecodeOfEncode := by
  refine ⟨fun i hw => ?_, fun i rest hi hw => decodeRecord_recordBytes rest hi hw⟩
  cases i with
  | endRec | run | lit =>
    rw [decode_encode_of_isRecord rfl, ← List.append_nil (recordBytes _)]
    exact decodeRecord_recordBytes [] rfl hw
  | encode | decode => rfl

/-- The bytes of a decoded record are its code: its header is put together again from the fields read. -/
theorem bytes_of_decodeRecord {bytes rest : List Byte} {i : Instr} (h : decodeRecord bytes = .ok (i, rest)) :
    bytes = recordBytes i ++ rest := by
  rcases decodeRecord_ok h with
    ⟨b, rfl, h0, rfl⟩ | ⟨b, v, rfl, -, hf, rfl⟩ | ⟨b, body, rfl, -, hf, hl, rfl⟩ <;>
    simp only [recordBytes, encode, codeBytes]
  · rw [endHeader_eq h0]
  · rw [hdrRun_hdrLen hf]
  · rw [hl, hdrLit_hdrLen hf]

/-- Settles O2: what is read is well-formed, a record, and spelled by the bytes read. -/
theorem encodeOfDecode : Obligations.EncodeOfDecode := fun _ _ _ h =>
  ⟨wellFormed_of_decodeRecord h, isRecord_of_decodeRecord h, bytes_of_decodeRecord h⟩

/-- Settles O5: the length of each of the three records the decoder reads. -/
theorem headerTellsLength : Obligations.HeaderTellsLength := by
  intro b rest rest' i h
  rcases decodeRecord_ok h with
    ⟨_, hb, h0, -⟩ | ⟨_, v, hb, h0, hf, -⟩ | ⟨_, body, hb, h0, hf, hl, -⟩ <;>
    obtain ⟨rfl, rfl⟩ := List.cons.inj hb
  · rw [if_pos h0]
    exact List.length_append (as := [b])
  · rw [if_neg h0, if_pos hf]
    exact List.length_append (as := [b, v])
  · rw [if_neg h0, if_neg (ne_false_of_eq_true hf), ← hl, Nat.add_comm 1]
    exact List.length_append (as := b :: body)

/-! ## Bytes that end too soon (R74) -/

/-- Why bytes are not decoded: no header, no value, or a body that is too short. -/
theorem decodeRecord_error {bytes : List Byte} {e : DecodeError} (h : decodeRecord bytes = .error e) :
    (bytes = [] ∧ e = .noHeader) ∨
    (∃ b, bytes = [b] ∧ classify b = .run ∧ e = .noValue) ∨
    (∃ b rest, bytes = b :: rest ∧ classify b = .literal ∧ rest.length < (hdrLen b).toNat ∧ e = .shortBody) := by
  cases bytes with
  | nil =>
    cases h
    exact .inl ⟨rfl, rfl⟩
  | cons b rest =>
    cases hc : classify b with
    | ending => simp [decodeRecord, hc] at h
    | run =>
      cases rest with
      | nil =>
        simp only [decodeRecord, hc, Except.error.injEq] at h
        exact .inr (.inl ⟨b, rfl, hc, h.symm⟩)
      | cons v rest => simp [decodeRecord, hc] at h
    | literal =>
      by_cases hl : (hdrLen b).toNat ≤ rest.length
      · simp [decodeRecord, hc, hl] at h
      · simp only [decodeRecord, hc, if_neg hl, Except.error.injEq] at h
        exact .inr (.inr ⟨b, rest, rfl, hc, Nat.lt_of_not_le hl, h.symm⟩)

/-- Settles O6: with 127 bytes after the header none of the three ways to fail is left. -/
theorem noIllegalEncoding : Obligations.NoIllegalEncoding := by
  refine ⟨fun b rest hlen => ?_, fun _ _ => decodeRecord_error⟩
  cases hdec : decodeRecord (b :: rest) with
  | ok r => exact ⟨r.1, r.2, rfl⟩
  | error e =>
    rcases decodeRecord_error hdec with ⟨hnil, -⟩ | ⟨_, hb, -, -⟩ | ⟨c, _, hb, -, hshort, -⟩
    · cases hnil
    · cases hb
      exact absurd hlen (by decide)
    · cases hb
      have := (hdrLen b).isLt
      omega

/-! ## Fixed words (R81, R85) -/

/-- Settles O7: the five words, run through the decoder and the encoder. -/
theorem workedEncodings : Obligations.WorkedEncodings :=
  ⟨rfl, rfl, rfl, rfl, rfl, rfl, rfl, rfl, rfl, rfl⟩

/-- Settles O8: both values of the flag. -/
theorem modeFlagSelects : Obligations.ModeFlagSelects := ⟨rfl, rfl, rfl, rfl⟩

end Sys2Proof.Machine

/-! PROOFS of the family 40_encoder.md. The encoder's steps in each state of ESTATE (O31, O33, O34), the run measurement
(O32), a record, the terminator and the flush emitted (O35 to O38), and the failures (O29); the reference encoder taken
apart into rounds of one record each, which are canonical and expand to the input (O56); and the machine following those
rounds from the load to the flush (O57). -/

namespace Sys2Proof.Machine

/-! ## A running encode invocation with nothing more to be presented -/

/-- A running encode invocation, every sample already presented: the spec's step is the encoder's. -/
def QuietEncode (s : State) : Prop := s.host = [] ∧ s.encoding = true

theorem unitTick_encoding {s : State} (h : s.encoding = true) : unitTick s = encTick s := by
  obtain ⟨-, hm⟩ := (encoding_iff s).mp h
  simp only [unitTick, hm]

theorem microStep_quietEncode {s : State} (h : QuietEncode s) : microStep s = encTick s := by
  obtain ⟨hq, he⟩ := h
  simp only [microStep, hostTurn_quiet_busy hq ((encoding_iff s).mp he).1, unitTick_encoding he]

theorem microRun_one (s : State) : microRun 1 s = microStep s := by
  rw [microRun_succ]
  cases microStep s <;> rfl

theorem microRun_of_microStep {s u : State} (k : Nat) (h : microStep s = .next u) :
    microRun (k + 1) s = microRun k u := by
  rw [microRun_succ, h]
  rfl

theorem microRun_add {s u : State} {j : Nat} (k : Nat) (h : microRun j s = .next u) :
    microRun (j + k) s = microRun k u := by
  induction j generalizing s with
  | zero =>
    cases h
    rw [Nat.zero_add]
  | succ j ih =>
    rw [microRun_succ] at h
    cases hs : microStep s with
    | next v =>
      rw [hs] at h
      rw [Nat.succ_add, microRun_of_microStep _ hs, ih h]
    | fault f | refused r =>
      rw [hs] at h
      cases h

theorem Reaches.trans {s u : State} {r : Res} (h : Reaches s (.next u)) (hr : Reaches u r) : Reaches s r := by
  obtain ⟨j, hj⟩ := h
  obtain ⟨k, hk⟩ := hr
  exact ⟨j + k, (microRun_add k hj).trans hk⟩

/-! ## The load phase (R89) -/

theorem ibufHas_of_withinCap {p : Params} {n : Nat} (h : withinCap p (n + 1) = true) :
    p.ibufCap ≠ some n ∧ ibufHas p n = true := by
  unfold withinCap at h
  unfold ibufHas
  cases hc : p.ibufCap with
  | none => exact ⟨nofun, rfl⟩
  | some c =>
    rw [hc] at h
    have hlt : n + 1 ≤ c := of_decide_eq_true h
    exact ⟨fun e => by cases e; omega, decide_eq_true hlt⟩

theorem withinCap_mono {p : Params} {m n : Nat} (h : withinCap p n = true) (hm : m ≤ n) : withinCap p m = true := by
  unfold withinCap at *
  split at h
  · rfl
  · exact decide_eq_true (hm.trans (of_decide_eq_true h))

theorem encTick_load {s : State} (h : s.eState = .load) : encTick s = encLoad s := by simp only [encTick, h]

/-- Settles O31: the answer's three kinds, a byte being refused or stored as the capacity says. -/
theorem loadStep : Obligations.LoadStep := by
  intro s hs
  rw [encTick_load hs]
  refine ⟨fun b q hq hfull => ?_, fun b q hq hcap => ?_, fun q hq => ?_, fun k q hq => ?_⟩
  · exact encLoad_refused_iff.mpr ⟨rfl, hfull, b, q, hq⟩
  · obtain ⟨hroom, hhas⟩ := ibufHas_of_withinCap hcap
    exact (inRead_cons _ hq).trans ((if_neg hroom).trans (writeIbuf_has (s := s.afterRead _ q) hhas))
  · exact inRead_cons _ hq
  · exact inRead_cons _ hq

/-! ## The silent steps (R90, R92) -/

theorem encTick_scan {s : State} (h : s.eState = .scan) : encTick s = encScan s := by simp only [encTick, h]

theorem encTick_litAcc {s : State} (h : s.eState = .litAcc) : encTick s = encLitAcc s := by simp only [encTick, h]

/-- Settles O33: the end of the input, and the two sides of the threshold 3. -/
theorem scanStep : Obligations.ScanStep := by
  intro s hs
  rw [encTick_scan hs]
  exact ⟨encScan_end, fun m hn hm h3 => encScan_run hn hm ((qualifies_eq_true m).mpr h3),
    fun m hn hm h3 => encScan_literal hn hm ((qualifies_eq_false m).mpr h3)⟩

theorem literalTakes_run (fill : LitFill) (acc : Nat) {m : Nat} (h : 3 ≤ m) : literalTakes fill acc m = 0 :=
  if_pos ((qualifies_eq_true m).mpr h)

theorem literalTakes_short (fill : LitFill) (acc : Nat) {m : Nat} (h : m < 3) :
    literalTakes fill acc m =
      match fill with
      | .split => 1
      | .defer => if 127 < acc + m then 0 else m
      | .chunk => m :=
  if_neg (Bool.not_eq_true _ ▸ (qualifies_eq_false m).mpr h)

/-- Settles O34: what LIT_FILL lets the literal take, D9, through the three branches of ENC.LIT_ACC. -/
theorem literalAccumulation : Obligations.LiteralAccumulation := by
  intro s hs
  rw [encTick_litAcc hs]
  refine ⟨fun h => encLitAcc_full (by simp only [Config.lenMax]; omega), fun m hl hi hm => ?_⟩
  have hopen : s.litLen.toNat < Config.lenMax ∧ s.i < s.n := ⟨hl, hi⟩
  refine ⟨fun h3 => ?_, fun h3 hf => ?_, fun h3 hf hlong => ?_, fun h3 h1 hf => ?_⟩
  · exact encLitAcc_stop hopen hm (literalTakes_run _ _ h3)
  · exact encLitAcc_take (k := 0) hopen hm (by rw [literalTakes_short _ _ h3, hf])
  · refine encLitAcc_stop hopen hm ?_
    rw [literalTakes_short _ _ h3, hf]
    exact if_pos hlong
  · obtain ⟨k, rfl⟩ : ∃ k, m = k + 1 := ⟨m - 1, by omega⟩
    refine encLitAcc_take hopen hm ?_
    rw [literalTakes_short _ _ h3]
    rcases hf with ⟨hf, hfits⟩ | hf <;> rw [hf]
    exact if_neg (Nat.not_lt.mpr hfits)

/-! ## The run measurement (R87) -/

/-- The bytes counted equal `b`, and the count stops at the cap, at the end, or at a byte that differs. -/
theorem countSame_spec {m : Memory} {n : Nat} {b : Byte} {cap i r : Nat} (h : countSame m n b cap i = .ok r) :
    (∀ j, j < r → readCell m (i + j) = some b) ∧ (r < cap → i + r < n → readCell m (i + r) ≠ some b) := by
  induction cap generalizing i r with
  | zero =>
    cases h
    exact ⟨nofun, nofun⟩
  | succ cap ih =>
    unfold countSame at h
    split at h
    case isFalse hend =>
      cases h
      exact ⟨nofun, fun _ hlt => absurd hlt hend⟩
    cases hx : readCell m i with
    | none => simp [hx] at h
    | some x =>
      simp only [hx] at h
      split at h
      case isFalse hne =>
        cases h
        exact ⟨nofun, fun _ _ e => hne (Option.some.inj (hx.symm.trans e))⟩
      rename_i hxb
      cases hr : countSame m n b cap (i + 1) with
      | error f => simp [hr] at h
      | ok r' =>
        rw [hr] at h
        cases h
        obtain ⟨hsame, hstop⟩ := ih hr
        refine ⟨fun j hj => ?_, fun hcap hlt => ?_⟩
        · cases j with
          | zero => rw [← hxb]; exact hx
          | succ j => rw [Nat.add_comm j 1, ← Nat.add_assoc]; exact hsame j (by omega)
        · rw [Nat.add_comm r' 1, ← Nat.add_assoc]
          exact hstop (by omega) (by omega)

/-- The measure is the largest k of R87's definition. -/
theorem measureRun_spec {s : State} (hw : written s.ibuf s.n = true) {i cap : Nat} (hi : i < s.n) (hcap : 1 ≤ cap) :
    ∃ r, measureRun s i cap = .ok r ∧ 1 ≤ r ∧ r ≤ cap ∧ i + r ≤ s.n ∧
      (∀ j, j < r → readCell s.ibuf (i + j) = readCell s.ibuf i) ∧
      (r < cap → i + r < s.n → readCell s.ibuf (i + r) ≠ readCell s.ibuf i) := by
  obtain ⟨c, rfl⟩ : ∃ c, cap = c + 1 := ⟨cap - 1, by omega⟩
  obtain ⟨b, hb⟩ := (written_iff _ _).mp hw i hi
  obtain ⟨r, hr, h1, hrc, hrn⟩ := measureRun_ok hw hi c
  have hcount : countSame s.ibuf s.n b (c + 1) i = .ok r := by
    unfold measureRun at hr
    rwa [if_pos hi, hb] at hr
  exact ⟨r, hr, h1, hrc, hrn, hb ▸ countSame_spec hcount⟩

/-- Behind a pair that no third byte follows the measure is 1 (R87). -/
theorem measureRun_after_pair {s : State} (hw : written s.ibuf s.n = true) {i : Nat}
    (h : measureRun s i 3 = .ok 2) : measureRun s (i + 1) 3 = .ok 1 := by
  obtain ⟨r, hr, -, -, hin, hsame, hstop⟩ := measureRun_spec hw (measureRun_lt h) (show 1 ≤ 3 by decide)
  obtain rfl : r = 2 := Except.ok.inj (hr.symm.trans h)
  obtain ⟨r', hr', h1, -, hin', hsame', -⟩ := measureRun_spec hw (show i + 1 < s.n by omega) (show 1 ≤ 3 by decide)
  obtain rfl : r' = 1 := by
    by_contra hne
    exact hstop (by decide) (by omega) ((hsame' 1 (by omega)).trans (hsame 1 (by decide)))
  exact hr'

/-- Settles O32: the largest k, and what two caps have to do with each other. -/
theorem runMeasurement : Obligations.RunMeasurement := by
  intro s i hi hall
  have hw : written s.ibuf s.n = true := (written_iff _ _).mpr hall
  refine ⟨fun cap hcap => measureRun_spec hw hi hcap, fun r r' hr hr' => ?_⟩
  have hmin : min 3 r = r' := Except.ok.inj ((measureRun_min hr (by decide)).symm.trans hr')
  exact ⟨hmin.symm, by omega, fun h2 => measureRun_after_pair hw (h2 ▸ hr')⟩

/-! ## Emitting a record (R91, R93) -/

theorem encTick_txRun {s : State} (h : s.eState = .txRun) : encTick s = encEmitRun s := by simp only [encTick, h]

theorem encTick_txLit {s : State} (h : s.eState = .txLit) : encTick s = encEmitLit s := by simp only [encTick, h]

theorem encTick_txEnd {s : State} (h : s.eState = .txEnd) : encTick s = encFinish s := by simp only [encTick, h]

theorem encTick_flush {s : State} (h : s.eState = .flush) : encTick s = encFlush s := by simp only [encTick, h]

theorem readIbuf_found {s : State} {a : Nat} {b : Byte} (use : Byte → Res) (h : readCell s.ibuf a = some b) :
    readIbuf s a use = use b := by
  simp only [readIbuf, h]

theorem flushThen_ok {s : State} {q : List OutAnswer} (done : State → Res) (h : s.outQueue = .ok :: q) :
    flushThen s done = done (s.afterFlush .ok q) := by
  simp only [flushThen, outFlush, h]

section
variable {s : State}

/-- A run record's header is one write (R127). -/
theorem encEmitRun_header (h : s.txk = 0) :
    encEmitRun s = writeThen (hdrRun s.runLen) s fun s' => .next { s' with txk := 1 } :=
  if_pos h

/-- A run record's value is one write, of the byte at I (R127). -/
theorem encEmitRun_value {b : Byte} (h : s.txk ≠ 0) (hb : readCell s.ibuf s.i = some b) :
    encEmitRun s = writeThen b s fun s' => .next { s' with i := s'.i + s'.runLen.toNat, eState := .scan } :=
  (if_neg h).trans (readIbuf_found _ hb)

/-- A literal record's header is one write (R128). -/
theorem encEmitLit_header (h : s.txk = 0) :
    encEmitLit s = writeThen (hdrLit s.litLen) s fun s' => .next { s' with txk := 1 } :=
  if_pos h

/-- A literal record's body is one write for each byte (R128). -/
theorem encEmitLit_body {b : Byte} (h : s.txk ≠ 0) (hb : readCell s.ibuf (s.litStart + s.txk.toNat - 1) = some b) :
    encEmitLit s = writeThen b s fun s' =>
      if s'.txk = s'.litLen then .next { s' with eState := .scan } else .next { s' with txk := s'.txk + 1 } :=
  (if_neg h).trans (readIbuf_found _ hb)

end

/-- The header of the record at hand written. -/
def headerWritten (h : Byte) (q : List OutAnswer) (s : State) : State := { s.afterWrite h .ok q with txk := 1 }

theorem encTick_runHeader {s : State} (hs : s.eState = .txRun) (hk : s.txk = 0) :
    encTick s = writeThen (hdrRun s.runLen) s fun s' => .next { s' with txk := 1 } :=
  (encTick_txRun hs).trans (encEmitRun_header hk)

theorem encTick_runValue {s : State} {b : Byte} (h : Byte) (q : List OutAnswer) (hs : s.eState = .txRun)
    (hb : readCell s.ibuf s.i = some b) :
    encTick (headerWritten h q s) = writeThen b (headerWritten h q s) fun s' =>
      .next { s' with i := s'.i + s'.runLen.toNat, eState := .scan } :=
  (encTick_txRun (s := headerWritten h q s) hs).trans
    (encEmitRun_value (s := headerWritten h q s) (show (1 : BitVec 8) ≠ 0 by decide) hb)

/-- Settles O35: the header's write and the value's, each answered `Ok` or failing. -/
theorem emitRun : Obligations.EmitRun := by
  intro s b henc hs hk hh hb
  have hquiet : QuietEncode s := ⟨hh, henc⟩
  have hfirst := (microStep_quietEncode hquiet).trans (encTick_runHeader hs hk)
  have hsecond (q : List OutAnswer) :=
    (microStep_quietEncode (s := headerWritten (hdrRun s.runLen) q s) hquiet).trans (encTick_runValue _ q hs hb)
  have htwo (q : List OutAnswer) (hq : s.outQueue = .ok :: q) :
      microRun 2 s = microStep (headerWritten (hdrRun s.runLen) q s) :=
    (microRun_of_microStep 1 (hfirst.trans (writeThen_ok _ _ hq))).trans (microRun_one _)
  refine ⟨fun q hq => ?_, fun k q hq => ?_, fun k q hq => ?_⟩
  · rw [htwo _ hq, hsecond, writeThen_ok (q := q) _ _ rfl]
    simp [headerWritten, State.afterWrite]
  · refine ⟨_, (microRun_one s).trans (hfirst.trans (writeThen_fail _ _ hq)), rfl, rfl, rfl, rfl, ?_⟩
    rw [writeTrace_raise, writeTrace_afterWrite_fail]
  · refine ⟨_, (htwo _ hq).trans ((hsecond _).trans (writeThen_fail (q := q) _ _ rfl)), rfl, rfl, rfl, rfl, ?_⟩
    rw [writeTrace_raise, writeTrace_afterWrite_fail]
    exact writeTrace_afterWrite_ok s _ (.fail k :: q)

/-- A memory holds these bytes from an index on. -/
def HoldsAt (m : Memory) (a : Nat) (bs : List Byte) : Prop := ∀ j, j < bs.length → readCell m (a + j) = bs[j]?

theorem holdsAt_cons (m : Memory) (a : Nat) (b : Byte) (bs : List Byte) :
    HoldsAt m a (b :: bs) ↔ readCell m a = some b ∧ HoldsAt m (a + 1) bs := by
  constructor
  · intro h
    refine ⟨h 0 (Nat.succ_pos _), fun j hj => ?_⟩
    rw [Nat.add_assoc, Nat.add_comm 1 j]
    exact h (j + 1) (Nat.succ_lt_succ hj)
  · rintro ⟨h0, h⟩ j hj
    cases j with
    | zero => exact h0
    | succ j =>
      rw [Nat.add_comm j 1, ← Nat.add_assoc, Nat.add_comm 1 j]
      exact h j (Nat.lt_of_succ_lt_succ hj)

theorem HoldsAt.take {m : Memory} {a : Nat} {bs : List Byte} (h : HoldsAt m a bs) (t : Nat) :
    HoldsAt m a (bs.take t) := by
  intro j hj
  have hjt : j < t ∧ j < bs.length := by simpa using hj
  rw [h j hjt.2, List.getElem?_take_of_lt hjt.1]

theorem HoldsAt.drop {m : Memory} {a : Nat} {bs : List Byte} (h : HoldsAt m a bs) (t : Nat) :
    HoldsAt m (a + t) (bs.drop t) := by
  intro j hj
  have hjt : t + j < bs.length := by rw [List.length_drop] at hj; omega
  rw [Nat.add_assoc, h _ hjt, List.getElem?_drop]

theorem holdsAt_writeCells (m : Memory) (a : Nat) (bs : List Byte) : HoldsAt (writeCells m a bs) a bs :=
  fun j hj => readCell_writeCells_inside m a j bs hj

/-- The literal at hand emitted to its end, `bytes` written. -/
def litEmitted (bytes : List Byte) (q : List OutAnswer) (s : State) : State :=
  { s with
    txk := s.litLen, eState := .scan, outQueue := q
    events := s.events ++ bytes.map writeEvent, outBuffer := s.outBuffer ++ bytes }

theorem litEmitted_cons (b : Byte) (bs : List Byte) (q' q : List OutAnswer) (k : BitVec 8) (s : State) :
    litEmitted bs q { s.afterWrite b .ok q' with txk := k } = litEmitted (b :: bs) q s := by
  simp [litEmitted, State.afterWrite, writeEvent]

/-- The body of a literal from the byte TXK counts next, byte after byte (R128). -/
theorem microRun_litBody {s : State} {q : List OutAnswer} (b : Byte) (bs : List Byte) (hs : QuietEncode s)
    (he : s.eState = .txLit) (hk1 : 1 ≤ s.txk.toNat) (hk : s.txk.toNat + bs.length = s.litLen.toNat)
    (hmem : HoldsAt s.ibuf (s.litStart + s.txk.toNat - 1) (b :: bs))
    (hq : s.outQueue = List.replicate (bs.length + 1) .ok ++ q) :
    microRun (bs.length + 1) s = .next (litEmitted (b :: bs) q s) := by
  induction bs generalizing b s with
  | nil =>
    obtain ⟨hb, -⟩ := (holdsAt_cons _ _ _ _).mp hmem
    have hlast : s.txk = s.litLen := BitVec.eq_of_toNat_eq hk
    rw [List.length_nil, microRun_one, microStep_quietEncode hs, encTick_txLit he,
      encEmitLit_body (by bv_omega) hb, writeThen_ok _ _ hq]
    refine (if_pos hlast).trans ?_
    simp [litEmitted, State.afterWrite, writeEvent, hlast]
  | cons c cs ih =>
    obtain ⟨hb, hrest⟩ := (holdsAt_cons _ _ _ _).mp hmem
    rw [List.length_cons] at hk
    have hmore : s.txk ≠ s.litLen := fun e => by rw [e] at hk; omega
    have hsucc : (s.txk + 1).toNat = s.txk.toNat + 1 := by have := s.litLen.isLt; bv_omega
    have hstep : microStep s =
        .next { s.afterWrite b .ok (List.replicate (cs.length + 1) .ok ++ q) with txk := s.txk + 1 } := by
      rw [microStep_quietEncode hs, encTick_txLit he, encEmitLit_body (by bv_omega) hb, writeThen_ok _ _ hq]
      exact if_neg hmore
    rw [List.length_cons, microRun_of_microStep _ hstep, ← litEmitted_cons]
    have hk' : (s.txk + 1).toNat + cs.length = s.litLen.toNat := by omega
    have hidx : s.litStart + (s.txk + 1).toNat - 1 = s.litStart + s.txk.toNat - 1 + 1 := by omega
    exact ih c hs he (hsucc ▸ Nat.succ_pos _) hk' (hidx ▸ hrest) rfl

/-- Settles O36: the header's write, then the body's. -/
theorem emitLit : Obligations.EmitLit := by
  intro s body q henc hs hk hh hlen h1 hmax hmem hq
  cases body with
  | nil => cases h1
  | cons b bs =>
    rw [Nat.add_comm 1] at hq ⊢
    have hquiet : QuietEncode s := ⟨hh, henc⟩
    have hheader : microStep s =
        .next (headerWritten (hdrLit s.litLen) (List.replicate (bs.length + 1) .ok ++ q) s) := by
      rw [microStep_quietEncode hquiet, encTick_txLit hs, encEmitLit_header hk]
      exact writeThen_ok _ _ hq
    have hbody := microRun_litBody (q := q) b bs
      (s := headerWritten (hdrLit s.litLen) (List.replicate (bs.length + 1) .ok ++ q) s) hquiet hs le_rfl
      ((Nat.add_comm 1 _).trans hlen.symm) hmem rfl
    refine (microRun_of_microStep _ hheader).trans (hbody.trans ?_)
    simp [litEmitted, headerWritten, State.afterWrite, writeEvent]

/-! ## The end of the stream (R95, R96) -/

/-- The terminator written, the flush to come. -/
def terminated (q : List OutAnswer) (s : State) : State := { s.afterWrite hdrEnd .ok q with eState := .flush }

/-- Settles O37: the terminator's write and the flush. -/
theorem finishAndFlush : Obligations.FinishAndFlush := by
  intro s q henc hs hh hq
  have hquiet : QuietEncode s := ⟨hh, henc⟩
  have hquiet' : QuietEncode (terminated (.ok :: q) s) := hquiet
  have hend : microStep s = .next (terminated (.ok :: q) s) := by
    rw [microStep_quietEncode hquiet, encTick_txEnd hs, encFinish, txEnd]
    exact writeThen_ok _ _ hq
  rw [microRun_of_microStep 1 hend, microRun_one, microStep_quietEncode hquiet', encTick_flush rfl, encFlush,
    flushThen_ok (q := q) _ rfl]
  simp [terminated, State.afterFlush, State.afterWrite, hdrEnd, Config.terminator]

/-- The input read to its end, the scan to come. -/
def loaded (q : List InAnswer) (s : State) : State := { s.afterRead .eos q with i := 0, eState := .scan }

/-- Settles O38: `Eos` first, the scan finds the end at once, and the terminator and the flush follow. -/
theorem emptyInput : Obligations.EmptyInput := by
  intro s q r henc hs hn hh hin hout
  have hquiet : QuietEncode s := ⟨hh, henc⟩
  have hquiet' : QuietEncode (loaded q s) := hquiet
  have hload : microStep s = .next (loaded q s) := by
    rw [microStep_quietEncode hquiet, encTick_load hs]
    exact inRead_cons _ hin
  have hscan : microStep (loaded q s) = .next { loaded q s with eState := .txEnd } := by
    rw [microStep_quietEncode hquiet', encTick_scan rfl]
    exact encScan_end hn.symm
  have hfinish := finishAndFlush { loaded q s with eState := .txEnd } r henc rfl hh hout
  exact ⟨_, (microRun_of_microStep 3 hload).trans ((microRun_of_microStep 2 hscan).trans hfinish), rfl,
    List.append_assoc _ _ _⟩

/-! ## The failures (R104) -/

/-- The encoder issues a write only while it emits a record or the terminator (R86). -/
theorem encIssues_outWrite {s : State} {b : Byte} (h : encIssues s = some (.outWrite b)) :
    s.eState = .txRun ∨ s.eState = .txLit ∨ s.eState = .txEnd := by
  cases he : s.eState with
  | txRun => exact .inl rfl
  | txLit => exact .inr (.inl rfl)
  | txEnd => exact .inr (.inr rfl)
  | load | scan | litAcc | flush | halt => simp [encIssues, he] at h

/-- The encoder issues the flush in E_FLUSH alone (R86). -/
theorem encIssues_outFlush {s : State} (h : encIssues s = some .outFlush) : s.eState = .flush := by
  cases he : s.eState <;> simp only [encIssues, he] at h
  case flush => rfl
  case txRun | txLit => split at h <;> simp at h
  all_goals cases h

/-- A step of ENC that made one event issued the primitive the event answers. -/
theorem encIssues_of_event {s t : State} {e : Event} (h : encTick s = .next t) (he : t.events = s.events ++ [e]) :
    ∃ prim, encIssues s = some prim ∧ prim.answeredBy e = true := by
  obtain ⟨-, hev | ⟨prim, e', hissue, hanswer, hev⟩⟩ := encTick_performs h
  · simp [hev] at he
  · obtain rfl : e' = e := by simpa [hev] using he
    exact ⟨prim, hissue, hanswer⟩

/-- A failure past the load phase is that of the primitive ESTATE issues. -/
theorem encTick_failed_past_load {s t : State} (hb : s.status = .busy) (hs : s.eState ≠ .load)
    (h : encTick s = .next t) (hf : t.status = .fail) :
    (t.errCause = .wrFail ∧ (s.eState = .txRun ∨ s.eState = .txLit ∨ s.eState = .txEnd)) ∨
    (t.errCause = .flFail ∧ s.eState = .flush) := by
  obtain ⟨u, hu, hblank⟩ := encTick_output hs h
  have hstatus : u.status = .fail := (congrArg State.status hblank :).symm.trans hf
  have hcause : t.errCause = u.errCause := (congrArg State.errCause hblank :)
  have hevents : t.events = u.events := (congrArg State.events hblank :)
  cases hu with
  | silent | wrote => exact absurd (hb.symm.trans hstatus) nofun
  | flushed => exact absurd hstatus nofun
  | writeFailed =>
    obtain ⟨prim, hissue, hanswer⟩ := encIssues_of_event h hevents
    cases prim with
    | outWrite b => exact .inl ⟨hcause, encIssues_outWrite hissue⟩
    | inRead | outFlush => cases hanswer
  | flushFailed =>
    obtain ⟨prim, hissue, hanswer⟩ := encIssues_of_event h hevents
    cases prim with
    | outFlush => exact .inr ⟨hcause, encIssues_outFlush hissue⟩
    | inRead | outWrite => cases hanswer

/-- Settles O29: a failure in the load phase is a read's, `Eos` and every byte leave it BUSY. -/
theorem encoderFailures : Obligations.EncoderFailures := by
  refine ⟨fun s t henc h hf => ?_, fun s q henc hs hq => ?_, fun s b q henc hs hcap hq => ?_⟩
  all_goals obtain ⟨hb, -⟩ := (encoding_iff s).mp henc
  · rw [unitTick_encoding henc] at h
    by_cases hs : s.eState = .load
    · rw [encTick_load hs] at h
      rcases encLoad_next h with rfl | ⟨b, q, -, rfl⟩ | ⟨q, rfl⟩ | ⟨k, q, rfl⟩
      · exact absurd (hb.symm.trans hf) nofun
      · exact absurd (hb.symm.trans hf) nofun
      · exact absurd (hb.symm.trans hf) nofun
      · exact .inl ⟨rfl, hs⟩
    · exact .inr (encTick_failed_past_load hb hs h hf)
  · obtain ⟨-, -, heos, -⟩ := loadStep s hs
    exact ⟨_, (unitTick_encoding henc).trans (heos q hq), hb, rfl⟩
  · obtain ⟨-, hbyte, -, -⟩ := loadStep s hs
    exact ⟨_, (unitTick_encoding henc).trans (hbyte b q hq (by simp only [withinCap, hcap])), hb⟩

/-! ## The reference encoder (R97) -/

theorem sameAs_le_cap (b : Byte) (cap : Nat) (l : List Byte) : sameAs b cap l ≤ cap := by
  induction cap generalizing l with
  | zero => exact le_rfl
  | succ cap ih =>
    cases l with
    | nil => exact Nat.zero_le _
    | cons x l =>
      unfold sameAs
      split
      · exact Nat.succ_le_succ (ih l)
      · exact Nat.zero_le _

/-- The bytes counted are copies of `b`. -/
theorem eq_replicate_sameAs (b : Byte) (cap : Nat) (l : List Byte) :
    l = List.replicate (sameAs b cap l) b ++ l.drop (sameAs b cap l) := by
  induction cap generalizing l with
  | zero => rfl
  | succ cap ih =>
    cases l with
    | nil => rfl
    | cons x l =>
      unfold sameAs
      split
      · rename_i hxb
        rw [List.replicate_succ, List.drop_succ_cons, List.cons_append, ← ih l, hxb]
      · rfl

/-- A smaller cap cuts the count off. -/
theorem sameAs_min (b : Byte) {c cap : Nat} (hc : c ≤ cap) (l : List Byte) :
    sameAs b c l = min c (sameAs b cap l) := by
  induction c generalizing cap l with
  | zero => exact (Nat.zero_min _).symm
  | succ c ih =>
    obtain ⟨cap, rfl⟩ : ∃ k, cap = k + 1 := ⟨cap - 1, by omega⟩
    cases l with
    | nil => rfl
    | cons x l =>
      unfold sameAs
      split
      · rw [ih (Nat.le_of_succ_le_succ hc), Nat.add_min_add_right]
      · rfl

theorem refRun_le_cap (cap : Nat) (l : List Byte) : refRun cap l ≤ cap := by
  cases l with
  | nil => exact Nat.zero_le _
  | cons b l => exact sameAs_le_cap b cap (b :: l)

theorem refRun_pos (cap : Nat) (b : Byte) (l : List Byte) : 1 ≤ refRun (cap + 1) (b :: l) := by
  simp [refRun, sameAs]

theorem eq_replicate_refRun (cap : Nat) (b : Byte) (l : List Byte) :
    b :: l = List.replicate (refRun cap (b :: l)) b ++ (b :: l).drop (refRun cap (b :: l)) :=
  eq_replicate_sameAs b cap (b :: l)

theorem refRun_le_length (cap : Nat) (l : List Byte) : refRun cap l ≤ l.length := by
  cases l with
  | nil => exact le_rfl
  | cons b l =>
    have h := congrArg List.length (eq_replicate_refRun cap b l)
    rw [List.length_append, List.length_replicate] at h
    omega

/-- The measure inside a literal sees a run of three exactly if the measure of the scan does (R87). -/
theorem qualifies_refRun_lookahead (l : List Byte) :
    qualifies (refRun Config.lookahead l) = qualifies (refRun Config.lenMax l) := by
  cases l with
  | nil => rfl
  | cons b l =>
    have hmin : refRun Config.lookahead (b :: l) = min 3 (refRun Config.lenMax (b :: l)) :=
      sameAs_min b (by decide) (b :: l)
    rw [Bool.eq_iff_iff, qualifies_eq_true, qualifies_eq_true, hmin, le_min_iff]
    exact and_iff_right le_rfl

/-! ### The length of a literal -/

theorem refLiteral_full (fill : LitFill) (fuel : Nat) {acc : Nat} {rest : List Byte}
    (h : ¬(acc < Config.lenMax ∧ rest ≠ [])) : refLiteral fill fuel acc rest = acc := by
  cases fuel with
  | zero => rfl
  | succ fuel => exact if_neg h

theorem refLiteral_stop {fill : LitFill} (fuel : Nat) {acc : Nat} {rest : List Byte}
    (h : literalTakes fill acc (refRun Config.lookahead rest) = 0) : refLiteral fill fuel acc rest = acc := by
  cases fuel with
  | zero => rfl
  | succ fuel => simp [refLiteral, h]

theorem refLiteral_take {fill : LitFill} (fuel : Nat) {acc t : Nat} {rest : List Byte}
    (ho : acc < Config.lenMax ∧ rest ≠ []) (h : literalTakes fill acc (refRun Config.lookahead rest) = t + 1) :
    refLiteral fill (fuel + 1) acc rest = refLiteral fill fuel (acc + (t + 1)) (rest.drop (t + 1)) := by
  rw [refLiteral, if_pos ho, h]

/-- A literal takes no more than there is, keeps what it has, and stays within its longest length (R94). -/
theorem refLiteral_bounds (fill : LitFill) (fuel : Nat) {acc : Nat} (rest : List Byte)
    (hacc : acc ≤ literalMax fill) :
    acc ≤ refLiteral fill fuel acc rest ∧ refLiteral fill fuel acc rest ≤ acc + rest.length ∧
      refLiteral fill fuel acc rest ≤ literalMax fill := by
  induction fuel generalizing acc rest with
  | zero => exact ⟨le_rfl, Nat.le_add_right _ _, hacc⟩
  | succ fuel ih =>
    by_cases ho : acc < Config.lenMax ∧ rest ≠ []
    · cases ht : literalTakes fill acc (refRun Config.lookahead rest) with
      | zero =>
        rw [refLiteral_stop _ ht]
        exact ⟨le_rfl, Nat.le_add_right _ _, hacc⟩
      | succ t =>
        have hfits : acc + (t + 1) ≤ literalMax fill := ht ▸ literalTakes_fits fill _ ho.1
        obtain ⟨hge, hlen, hmax⟩ := ih (rest.drop (t + 1)) hfits
        have htaken : t + 1 ≤ rest.length := by
          obtain ⟨b, l, rfl⟩ := List.exists_cons_of_ne_nil ho.2
          exact (ht ▸ literalTakes_le fill acc (refRun_pos 2 b l)).trans (refRun_le_length _ _)
        rw [List.length_drop] at hlen
        rw [refLiteral_take _ ho ht]
        exact ⟨by omega, by omega, hmax⟩
    · rw [refLiteral_full _ _ ho]
      exact ⟨le_rfl, Nat.le_add_right _ _, hacc⟩

/-- Where no run of three starts a literal has at least one byte. -/
theorem refLiteral_pos (fill : LitFill) (fuel : Nat) {b : Byte} {l : List Byte}
    (hq : qualifies (refRun Config.lookahead (b :: l)) = false) : 1 ≤ refLiteral fill (fuel + 1) 0 (b :: l) := by
  obtain ⟨t, ht⟩ := Nat.exists_eq_succ_of_ne_zero (literalTakes_zero_ne fill (refRun_pos 2 b l) hq)
  have hfits := literalTakes_fits fill (acc := 0) (refRun Config.lookahead (b :: l)) (by decide)
  rw [show literalTakes fill 0 (refRun Config.lookahead (b :: l)) = t + 1 from ht] at hfits
  rw [refLiteral_take fuel ⟨by decide, List.cons_ne_nil b l⟩ ht]
  exact (by omega : 1 ≤ 0 + (t + 1)).trans (refLiteral_bounds fill fuel _ hfits).1

/-! ### One round: a record and what is left of the input -/

/-- The bytes of the literal R97 makes of the head of the input `b :: l`. -/
def refBody (fill : LitFill) (b : Byte) (l : List Byte) : List Byte := (b :: l).take (refLiteral fill 128 0 (b :: l))

/-- The record R97 makes of the bytes at the head of the input `b :: l`. -/
def refRecord (fill : LitFill) (b : Byte) (l : List Byte) : Instr :=
  if qualifies (refRun Config.lenMax (b :: l)) then .run (BitVec.ofNat 7 (refRun Config.lenMax (b :: l))) b
  else .lit (refBody fill b l)

/-- The input after the bytes that record covers. -/
def refRest (fill : LitFill) (b : Byte) (l : List Byte) : List Byte :=
  (b :: l).drop (expansion (refRecord fill b l)).length

section
variable {fill : LitFill} {b : Byte} {l : List Byte}

theorem toNat_refRun : (BitVec.ofNat 7 (refRun Config.lenMax (b :: l))).toNat = refRun Config.lenMax (b :: l) :=
  Nat.mod_eq_of_lt (Nat.lt_succ_of_le (refRun_le_cap 127 (b :: l)))

theorem refRecord_run (h : qualifies (refRun Config.lenMax (b :: l)) = true) :
    refRecord fill b l = .run (BitVec.ofNat 7 (refRun Config.lenMax (b :: l))) b := if_pos h

theorem refRecord_lit (h : qualifies (refRun Config.lenMax (b :: l)) = false) :
    refRecord fill b l = .lit (refBody fill b l) := if_neg (Bool.not_eq_true _ ▸ h)

theorem length_refBody : (refBody fill b l).length = refLiteral fill 128 0 (b :: l) := by
  obtain ⟨-, hlen, -⟩ := refLiteral_bounds fill 128 (b :: l) (Nat.zero_le _)
  exact List.length_take_of_le (by omega)

theorem length_refBody_le : (refBody fill b l).length ≤ (b :: l).length := List.length_take_le' _ _

theorem length_refBody_bounds (h : qualifies (refRun Config.lenMax (b :: l)) = false) :
    1 ≤ (refBody fill b l).length ∧ (refBody fill b l).length ≤ literalMax fill := by
  obtain ⟨-, -, hmax⟩ := refLiteral_bounds fill 128 (b :: l) (Nat.zero_le _)
  rw [length_refBody]
  exact ⟨refLiteral_pos fill 127 ((qualifies_refRun_lookahead _).trans h), hmax⟩

theorem refRest_run (h : qualifies (refRun Config.lenMax (b :: l)) = true) :
    refRest fill b l = (b :: l).drop (refRun Config.lenMax (b :: l)) := by
  rw [refRest, refRecord_run h, expansion, List.length_replicate, toNat_refRun]

theorem refRest_lit (h : qualifies (refRun Config.lenMax (b :: l)) = false) :
    refRest fill b l = (b :: l).drop (refLiteral fill 128 0 (b :: l)) := by
  rw [refRest, refRecord_lit h, expansion, length_refBody]

/-- LITLEN holds the length of every literal, 128 included (R133). -/
theorem toNat_refLiteral : (BitVec.ofNat 8 (refLiteral fill 128 0 (b :: l))).toNat = (refBody fill b l).length := by
  obtain ⟨-, -, hmax⟩ := refLiteral_bounds fill 128 (b :: l) (Nat.zero_le _)
  rw [length_refBody]
  exact Nat.mod_eq_of_lt (hmax.trans_lt (by cases fill <;> decide))

/-- A round of R97 emits its record and goes on with the rest. -/
theorem refEncodeFrom_cons (fuel : Nat) : refEncodeFrom fill (fuel + 1) (b :: l) =
    recordBytes (refRecord fill b l) ++ refEncodeFrom fill fuel (refRest fill b l) := by
  cases h : qualifies (refRun Config.lenMax (b :: l)) with
  | true =>
    rw [refRest_run h, refRecord_run h, refEncodeFrom, if_pos h]
    rfl
  | false =>
    rw [refRest_lit h, refRecord_lit h, refEncodeFrom, if_neg (Bool.not_eq_true _ ▸ h)]
    simp only [recordBytes, encode, codeBytes, length_refBody, List.cons_append]
    rfl

/-- The record expands to the bytes it covers. -/
theorem expansion_refRecord : expansion (refRecord fill b l) ++ refRest fill b l = b :: l := by
  cases h : qualifies (refRun Config.lenMax (b :: l)) with
  | true =>
    rw [refRest_run h, refRecord_run h, expansion, toNat_refRun]
    exact (eq_replicate_refRun _ b l).symm
  | false =>
    rw [refRest_lit h, refRecord_lit h]
    exact List.take_append_drop _ _

/-- The record is a RUN of at least RUN_MIN, or a LIT of at least one byte and within the longest literal of LIT_FILL
(R98, R133). -/
theorem refRecord_canonical (fill : LitFill) (b : Byte) (l : List Byte) :
    (∃ c v, refRecord fill b l = .run c v ∧ 3 ≤ c.toNat) ∨
    (∃ body, refRecord fill b l = .lit body ∧ 1 ≤ body.length ∧ body.length ≤ literalMax fill) := by
  cases h : qualifies (refRun Config.lenMax (b :: l)) with
  | true => exact .inl ⟨_, _, refRecord_run h, toNat_refRun.symm ▸ (qualifies_eq_true _).mp h⟩
  | false => exact .inr ⟨_, refRecord_lit h, length_refBody_bounds h⟩

/-- Each round covers at least one byte. -/
theorem refRest_length_le (fill : LitFill) (b : Byte) (l : List Byte) : (refRest fill b l).length ≤ l.length := by
  have hpos : 1 ≤ (expansion (refRecord fill b l)).length := by
    rcases refRecord_canonical fill b l with ⟨c, v, hr, h3⟩ | ⟨body, hr, h1, -⟩ <;> rw [hr]
    · exact (List.length_replicate (n := c.toNat) (a := v)).symm ▸ (by omega : 1 ≤ c.toNat)
    · exact h1
  have hlen := congrArg List.length (expansion_refRecord (fill := fill) (b := b) (l := l))
  rw [List.length_append, List.length_cons] at hlen
  omega

end

/-- R98 (a) to (d) for every LIT_FILL, with the longest literal it allows. -/
theorem refEncodeFrom_canonical (fill : LitFill) (fuel : Nat) (d : List Byte) (hd : d.length ≤ fuel) :
    ∃ records : List Instr,
      refEncodeFrom fill fuel d = records.flatMap recordBytes ++ [hdrEnd] ∧
      (∀ i ∈ records, (∃ c v, i = .run c v ∧ 3 ≤ c.toNat) ∨
        (∃ body, i = .lit body ∧ 1 ≤ body.length ∧ body.length ≤ literalMax fill)) ∧
      records.flatMap expansion = d := by
  induction fuel generalizing d with
  | zero =>
    obtain rfl := List.eq_nil_of_length_eq_zero (Nat.le_zero.mp hd)
    exact ⟨[], rfl, nofun, rfl⟩
  | succ fuel ih =>
    cases d with
    | nil => exact ⟨[], rfl, nofun, rfl⟩
    | cons b l =>
      obtain ⟨records, hbytes, hcanon, hexp⟩ :=
        ih (refRest fill b l) ((refRest_length_le fill b l).trans (Nat.le_of_succ_le_succ hd))
      refine ⟨refRecord fill b l :: records, ?_, ?_, ?_⟩
      · rw [refEncodeFrom_cons, hbytes, List.flatMap_cons, List.append_assoc]
      · exact List.forall_mem_cons.mpr ⟨refRecord_canonical fill b l, hcanon⟩
      · rw [List.flatMap_cons, hexp, expansion_refRecord]

/-- Settles O56: the records of R97's rounds, one after the other. -/
theorem encoderOutputIsCanonical : Obligations.EncoderOutputIsCanonical :=
  fun d => refEncodeFrom_canonical .split d.length d le_rfl

/-! ## The machine follows the reference encoder (R97)

What is left of the input stands in IBUF from I on; each round of the reference encoder is a number of the spec's
steps from E_SCAN to E_SCAN. -/

/-- A running encode invocation that has `rest` of its input before it, all of it in IBUF. -/
structure AtInput (rest : List Byte) (s : State) : Prop where
  quiet : QuietEncode s
  position : s.i + rest.length = s.n
  bytes : HoldsAt s.ibuf s.i rest

/-- Going past `t` of the bytes. -/
theorem AtInput.advance {rest : List Byte} {s u : State} (h : AtInput rest s) {t : Nat} (ht : t ≤ rest.length)
    (hu : QuietEncode u) (hi : u.i = s.i + t) (hn : u.n = s.n) (hm : u.ibuf = s.ibuf) : AtInput (rest.drop t) u := by
  refine ⟨hu, ?_, hm ▸ hi ▸ h.bytes.drop t⟩
  rw [hi, hn, List.length_drop, ← h.position]
  omega

theorem countSame_holdsAt {m : Memory} {n i : Nat} {l : List Byte} (b : Byte) (cap : Nat) (hn : i + l.length = n)
    (hm : HoldsAt m i l) : countSame m n b cap i = .ok (sameAs b cap l) := by
  induction cap generalizing i l with
  | zero => rfl
  | succ cap ih =>
    cases l with
    | nil => exact if_neg (by rw [← hn]; exact Nat.lt_irrefl i)
    | cons x l =>
      obtain ⟨hx, htail⟩ := (holdsAt_cons _ _ _ _).mp hm
      rw [List.length_cons] at hn
      simp only [countSame, if_pos (show i < n by omega), hx, ih (show i + 1 + l.length = n by omega) htail, sameAs]
      split <;> rfl

theorem AtInput.lt_iff_ne_nil {rest : List Byte} {s : State} (h : AtInput rest s) : s.i < s.n ↔ rest ≠ [] := by
  rw [← h.position, ← List.length_pos_iff]
  omega

theorem AtInput.lt_of_cons {b : Byte} {l : List Byte} {s : State} (h : AtInput (b :: l) s) : s.i < s.n :=
  h.lt_iff_ne_nil.mpr (List.cons_ne_nil b l)

/-- The measure at I is the reference's at the head of the input (R87). -/
theorem AtInput.measureRun_eq {b : Byte} {l : List Byte} {s : State} (h : AtInput (b :: l) s) (cap : Nat) :
    measureRun s s.i cap = .ok (refRun cap (b :: l)) := by
  obtain ⟨hb, -⟩ := (holdsAt_cons _ _ _ _).mp h.bytes
  simp only [measureRun, if_pos h.lt_of_cons, hb]
  exact countSame_holdsAt b cap h.position h.bytes

theorem reaches_encTick {s u : State} {r : Res} (hs : QuietEncode s) (h : encTick s = .next u) (hr : Reaches u r) :
    Reaches s r :=
  reaches_of_microStep ((microStep_quietEncode hs).trans h) hr

/-! ### The load phase -/

/-- The input `bs` stored from N on and its end seen. -/
def inputLoaded (bs : List Byte) (q : List InAnswer) (s : State) : State :=
  { s with
    ibuf := writeCells s.ibuf s.n bs, n := s.n + bs.length, i := 0, eState := .scan, inQueue := q
    events := s.events ++ bs.map readEvent ++ [.rd .eos] }

theorem inputLoaded_cons (b : Byte) (bs : List Byte) (q' q : List InAnswer) (s : State) :
    inputLoaded bs q { s.afterRead (.byte b) q' with ibuf := writeCell s.ibuf s.n b, n := s.n + 1 } =
      inputLoaded (b :: bs) q s := by
  simp [inputLoaded, State.afterRead, writeCells, readEvent, Nat.add_assoc, Nat.add_comm 1]

/-- The load of an input that fits (R89). -/
theorem reaches_inputLoaded {s : State} {q : List InAnswer} (bs : List Byte) (hs : QuietEncode s)
    (he : s.eState = .load) (hq : s.inQueue = bs.map .byte ++ .eos :: q)
    (hcap : withinCap s.par (s.n + bs.length) = true) : Reaches s (.next (inputLoaded bs q s)) := by
  induction bs generalizing s with
  | nil =>
    obtain ⟨-, -, heos, -⟩ := loadStep s he
    refine reaches_encTick hs (heos q hq) ?_
    rw [show inputLoaded [] q s = loaded q s by simp [inputLoaded, loaded, State.afterRead, writeCells]]
    exact reaches_refl _
  | cons b bs ih =>
    rw [List.length_cons] at hcap
    obtain ⟨-, hbyte, -, -⟩ := loadStep s he
    refine reaches_encTick hs (hbyte b _ hq (withinCap_mono hcap (by omega))) ?_
    rw [← inputLoaded_cons b bs (bs.map .byte ++ .eos :: q)]
    exact ih hs he rfl (by rwa [show s.n + 1 + bs.length = s.n + (bs.length + 1) by omega])

/-! ### A literal accumulated -/

/-- The literal at hand closed at length `t`. -/
def literalClosed (t : Nat) (s : State) : State :=
  closeLiteral { s with litLen := BitVec.ofNat 8 t, i := s.litStart + t }

theorem literalClosed_self {s : State} (hpos : s.litStart + s.litLen.toNat = s.i) :
    literalClosed s.litLen.toNat s = closeLiteral s := by
  simp only [literalClosed, hpos, BitVec.ofNat_toNat, BitVec.setWidth_eq]

theorem AtInput.open_iff {rest : List Byte} {s : State} (h : AtInput rest s) :
    (s.litLen.toNat < Config.lenMax ∧ s.i < s.n) ↔ (s.litLen.toNat < Config.lenMax ∧ rest ≠ []) :=
  and_congr_right fun _ => h.lt_iff_ne_nil

/-- ENC.LIT_ACC takes what R97's inner loop takes; a literal is full before `fuel` runs out. -/
theorem reaches_literalClosed {s : State} {rest : List Byte} (fuel : Nat) (h : AtInput rest s)
    (he : s.eState = .litAcc) (hpos : s.litStart + s.litLen.toNat = s.i) (hfuel : 127 ≤ s.litLen.toNat + fuel) :
    Reaches s (.next (literalClosed (refLiteral s.par.litFill fuel s.litLen.toNat rest) s)) := by
  induction fuel generalizing s rest with
  | zero =>
    have hfull : ¬(s.litLen.toNat < Config.lenMax ∧ s.i < s.n) := fun ho => Nat.not_lt.mpr hfuel ho.1
    rw [refLiteral, literalClosed_self hpos]
    exact reaches_encTick h.quiet ((encTick_litAcc he).trans (encLitAcc_full hfull)) (reaches_refl _)
  | succ fuel ih =>
    by_cases ho : s.litLen.toNat < Config.lenMax ∧ rest ≠ []
    · obtain ⟨b, l, rfl⟩ := List.exists_cons_of_ne_nil ho.2
      have hm := h.measureRun_eq Config.lookahead
      cases ht : literalTakes s.par.litFill s.litLen.toNat (refRun Config.lookahead (b :: l)) with
      | zero =>
        rw [refLiteral_stop _ ht, literalClosed_self hpos]
        exact reaches_encTick h.quiet ((encTick_litAcc he).trans (encLitAcc_stop (h.open_iff.mpr ho) hm ht))
          (reaches_refl _)
      | succ t =>
        have hle : t + 1 ≤ refRun Config.lookahead (b :: l) := ht ▸ literalTakes_le _ _ (refRun_pos 2 b l)
        have h3 : refRun Config.lookahead (b :: l) ≤ 3 := refRun_le_cap _ _
        have hlt : s.litLen.toNat < 127 := ho.1
        have hsum : (s.litLen + BitVec.ofNat 8 (t + 1)).toNat = s.litLen.toNat + (t + 1) := by
          rw [BitVec.toNat_add, BitVec.toNat_ofNat]; omega
        have hnext : AtInput ((b :: l).drop (t + 1))
            { s with litLen := s.litLen + BitVec.ofNat 8 (t + 1), i := s.i + (t + 1) } :=
          h.advance (hle.trans (refRun_le_length _ _)) h.quiet rfl rfl rfl
        refine reaches_encTick h.quiet ((encTick_litAcc he).trans (encLitAcc_take (h.open_iff.mpr ho) hm ht)) ?_
        rw [refLiteral_take _ ho ht, ← hsum]
        exact ih hnext he (by rw [hsum, ← hpos]; exact (Nat.add_assoc _ _ _).symm) (by rw [hsum]; omega)
    · rw [refLiteral_full _ _ ho, literalClosed_self hpos]
      exact reaches_encTick h.quiet ((encTick_litAcc he).trans (encLitAcc_full (h.open_iff.not.mpr ho)))
        (reaches_refl _)

/-! ### One round -/

/-- A literal opened at I, the measure there being `r`. -/
def literalOpened (r : Nat) (s : State) : State :=
  { s with runLen := BitVec.ofNat 7 r, litStart := s.i, litLen := 0, eState := .litAcc }

/-- A record has been written and the scan goes on: `bytes` of output, `rest` of input. -/
structure Scanned (bytes rest : List Byte) (q : List OutAnswer) (s u : State) : Prop where
  input : AtInput rest u
  scan : u.eState = .scan
  par : u.par = s.par
  answers : u.outQueue = q
  written : u.events = s.events ++ bytes.map writeEvent

section
variable {b : Byte} {l : List Byte} {s : State} {q : List OutAnswer}
  (h : AtInput (b :: l) s) (he : s.eState = .scan)
include h he

/-- The scan finds a run of at least three and emits it (R90, R91). -/
theorem reaches_scanned_run (hr : qualifies (refRun Config.lenMax (b :: l)) = true)
    (hq : s.outQueue = List.replicate 2 .ok ++ q) :
    ∃ u, Reaches s (.next u) ∧
      Scanned (recordBytes (refRecord s.par.litFill b l)) (refRest s.par.litFill b l) q s u := by
  obtain ⟨hb, -⟩ := (holdsAt_cons _ _ _ _).mp h.bytes
  have hscan := encScan_run h.lt_of_cons.ne (h.measureRun_eq _) hr
  obtain ⟨hemit, -, -⟩ := emitRun
    { s with runLen := BitVec.ofNat 7 (refRun Config.lenMax (b :: l)), txk := 0, eState := .txRun } b
    h.quiet.2 rfl rfl h.quiet.1 hb
  refine ⟨_, reaches_encTick h.quiet ((encTick_scan he).trans hscan) ⟨2, hemit q hq⟩, ?_, rfl, rfl, rfl, ?_⟩
  · rw [refRest_run hr]
    exact h.advance (refRun_le_length _ _) h.quiet (congrArg (s.i + ·) toNat_refRun) rfl rfl
  · rw [refRecord_run hr]
    rfl

/-- The scan finds no run of three; a literal is accumulated and emitted (R90, R92, R93). -/
theorem reaches_scanned_lit (hr : qualifies (refRun Config.lenMax (b :: l)) = false)
    (hq : s.outQueue = List.replicate (1 + (refBody s.par.litFill b l).length) .ok ++ q) :
    ∃ u, Reaches s (.next u) ∧
      Scanned (recordBytes (refRecord s.par.litFill b l)) (refRest s.par.litFill b l) q s u := by
  obtain ⟨hpos, hmax⟩ := length_refBody_bounds (fill := s.par.litFill) hr
  have hscan := encScan_literal h.lt_of_cons.ne (h.measureRun_eq _) hr
  have hopened : AtInput (b :: l) (literalOpened (refRun Config.lenMax (b :: l)) s) := ⟨h.quiet, h.position, h.bytes⟩
  have hclosed := reaches_literalClosed 128 hopened rfl rfl (Nat.le_add_left 127 1)
  have hemit := emitLit (literalClosed (refLiteral s.par.litFill 128 0 (b :: l))
    (literalOpened (refRun Config.lenMax (b :: l)) s)) _ q h.quiet.2 rfl rfl h.quiet.1 toNat_refLiteral hpos hmax
    (h.bytes.take _) hq
  refine ⟨_, reaches_encTick h.quiet ((encTick_scan he).trans hscan) (hclosed.trans ⟨_, hemit⟩), ?_, rfl, rfl, rfl, ?_⟩
  · rw [refRest_lit hr, ← length_refBody]
    exact h.advance length_refBody_le h.quiet rfl rfl rfl
  · rw [refRecord_lit hr]
    simp only [recordBytes, encode, codeBytes, length_refBody]
    rfl

/-- One round of R97 with its writes answered `Ok`. -/
theorem reaches_scanned
    (hq : s.outQueue = List.replicate (recordBytes (refRecord s.par.litFill b l)).length .ok ++ q) :
    ∃ u, Reaches s (.next u) ∧
      Scanned (recordBytes (refRecord s.par.litFill b l)) (refRest s.par.litFill b l) q s u := by
  cases hr : qualifies (refRun Config.lenMax (b :: l)) with
  | true => exact reaches_scanned_run h he hr (by rw [hq, refRecord_run hr]; rfl)
  | false => exact reaches_scanned_lit h he hr (by rw [hq, refRecord_lit hr, recordBytes_length]; rfl)

end

/-! ### The whole invocation -/

/-- The events of an invocation's output: its writes, each answered `Ok`, and the flush. -/
def outputEvents (bytes : List Byte) : List Event := bytes.map writeEvent ++ [.flush .ok]

/-- At the end of the input the terminator and the flush are left (R90, R95, R96). -/
theorem reaches_flushed {s : State} {q : List OutAnswer} (h : AtInput [] s) (he : s.eState = .scan)
    (hq : s.outQueue = .ok :: .ok :: q) :
    ∃ t, Reaches s (.next t) ∧ t.status = .ok ∧ t.events = s.events ++ outputEvents [hdrEnd] :=
  have hfinish := finishAndFlush { s with eState := .txEnd } q h.quiet.2 rfl h.quiet.1 hq
  ⟨_, reaches_encTick h.quiet ((encTick_scan he).trans (encScan_end h.position)) ⟨2, hfinish⟩, rfl, rfl⟩

/-- From the scan on, with enough `Ok` answers, the machine writes what R97 makes of the input before it. -/
theorem reaches_encoded {s : State} {rest : List Byte} {q : List OutAnswer} (fuel : Nat) (h : AtInput rest s)
    (he : s.eState = .scan) (hfuel : rest.length ≤ fuel)
    (hq : s.outQueue = List.replicate ((refEncodeFrom s.par.litFill fuel rest).length + 1) .ok ++ q) :
    ∃ t, Reaches s (.next t) ∧ t.status = .ok ∧
      t.events = s.events ++ outputEvents (refEncodeFrom s.par.litFill fuel rest) := by
  induction fuel generalizing s rest with
  | zero =>
    obtain rfl := List.eq_nil_of_length_eq_zero (Nat.le_zero.mp hfuel)
    exact reaches_flushed h he hq
  | succ fuel ih =>
    cases rest with
    | nil => exact reaches_flushed h he hq
    | cons b l =>
      rw [refEncodeFrom_cons] at hq ⊢
      rw [List.length_append, Nat.add_assoc, List.replicate_add, List.append_assoc] at hq
      obtain ⟨u, hu, hround⟩ := reaches_scanned h he hq
      obtain ⟨t, ht, hok, hev⟩ := ih hround.input hround.scan
        ((refRest_length_le _ b l).trans (Nat.le_of_succ_le_succ hfuel)) (hround.par ▸ hround.answers)
      refine ⟨t, hu.trans ht, hok, ?_⟩
      rw [hev, hround.written, hround.par]
      simp [outputEvents]

theorem unitTick_quiet {s t : State} (hm : s.mode = .encode) (hh : s.host = []) (h : unitTick s = .next t) :
    t.mode = .encode ∧ t.host = [] := by
  obtain ⟨hmode, -, hhost, -⟩ := unitsAreSeparate s t h
  exact ⟨hmode.trans hm, hhost.trans hh⟩

theorem core_run_succ (k : Nat) (s : State) : Host.Core.run Sys2Proof.core (k + 1) s =
    andThen (step s) (Host.Core.run Sys2Proof.core k) := by
  cases h : step s <;> simp only [Host.Core.run, show Sys2Proof.core.step s = _ from h] <;> rfl

/-- In encode mode, with nothing more to be presented, the machine's steps are the spec's. -/
theorem run_eq_microRun {s : State} (k : Nat) (hm : s.mode = .encode) (hh : s.host = []) :
    Host.Core.run Sys2Proof.core k s = microRun k s := by
  induction k generalizing s with
  | zero => rfl
  | succ k ih =>
    have hstep : step s = microStep s := step_eq_microStep fun s' hturn => by
      rw [(hostTurn_running hturn).2, sampled, deliver_mode]
      exact hm
    have hkeep : ∀ u, microStep s = .next u → u.mode = .encode ∧ u.host = [] := by
      intro u hu
      by_cases hb : s.status = .busy
      · simp only [microStep, hostTurn_quiet_busy hh hb] at hu
        exact unitTick_quiet hm hh hu
      · simp only [microStep, hostTurn_quiet_rest hh hb] at hu
        cases hu
        exact ⟨hm, hh⟩
    rw [microRun_succ, core_run_succ, hstep]
    cases hu : microStep s with
    | next u => exact ih (hkeep u hu).1 (hkeep u hu).2
    | fault f | refused r => rfl

theorem writeTrace_of_events {s : State} {d bytes : List Byte}
    (h : s.events = d.map readEvent ++ [.rd .eos] ++ outputEvents bytes) : s.writeTrace = bytes := by
  simp only [State.writeTrace, h, outputEvents, List.filterMap_append, filterMap_wroteByte_readEvent,
    filterMap_wroteByte_writeEvent]
  exact List.append_nil bytes

/-- Settles O57: the load leaves the input before the scan, and from there the machine follows R97. -/
theorem encodeInvocation : Obligations.EncodeInvocation := by
  intro s d m hl hm
  obtain ⟨hb, hmode⟩ := hl.running
  obtain ⟨he, hn, -⟩ := hl.encAtStart rfl
  have hquiet : QuietEncode s := ⟨hl.quiet, (encoding_iff s).mpr ⟨hb, hmode⟩⟩
  have hload := reaches_inputLoaded d hquiet he hl.inputReady (by rw [hn, Nat.zero_add]; exact hl.fits rfl)
  have hinput : AtInput d (inputLoaded d [] s) :=
    ⟨hquiet, by simp [inputLoaded, hn], by simpa [inputLoaded, hn] using holdsAt_writeCells s.ibuf 0 d⟩
  have hout : s.outQueue = List.replicate ((refEncode s.par.litFill d).length + 1) .ok ++
      List.replicate (m - ((refEncode s.par.litFill d).length + 1)) .ok := by
    rw [hl.outputReady, List.replicate_append_replicate, Nat.add_sub_cancel' hm]
  obtain ⟨t, ht, hok, hev⟩ := reaches_encoded d.length hinput rfl le_rfl hout
  have hevents : t.events = d.map readEvent ++ [.rd .eos] ++ outputEvents (refEncode s.par.litFill d) := by
    rw [hev, inputLoaded, hl.noEvents]
    rfl
  obtain ⟨k, hk⟩ := hload.trans ht
  exact ⟨k, t, (run_eq_microRun k hmode hl.quiet).trans hk, hok, hevents.trans (List.append_assoc _ _ _).symm,
    writeTrace_of_events hevents⟩

end Sys2Proof.Machine

/-! PROOFS of the family 41_decoder.md. The decoder's steps in each state of DSTATE and DPHASE (O12, O15) and their
failures (O30); END and the two commands (O18, O19) and the record a machine step runs (O20); a record drained to its
end (O13, O16), cut off by a failing write (O28), and what draining leaves alone (O14, O17); the reference decoder taken
apart into records, from it the round trip (O55), and the machine following it to the end of the invocation (O58). -/

namespace Sys2Proof.Machine

/-! ## The steps of RUN and LIT, answer by answer (R109, R110) -/

theorem readThen_eos {s : State} {q : List InAnswer} (c : ErrCause) (found : Byte → State → Res)
    (h : s.inQueue = .eos :: q) : readThen c s found = .next ((s.afterRead .eos q).raise c .unexpectedEof) :=
  inRead_cons _ h

theorem readThen_fail {s : State} {k : IoErrorKind} {q : List InAnswer} (c : ErrCause) (found : Byte → State → Res)
    (h : s.inQueue = .fail k :: q) :
    readThen c s found = .next ((s.afterRead (.fail k) q).raise .rdFail (.io k)) :=
  inRead_cons _ h

theorem drained_eq (s : State) :
    drained s = { s with k := s.k + 1, dState := if s.k + 1 = s.len then .readingHeader else s.dState } := by
  by_cases h : s.k + 1 = s.len
  · rw [drained, if_pos h, if_pos h]
  · rw [drained, if_neg h, if_neg h]

/-- Where the decoder issues a write, its step is that write and the count of it. -/
theorem decTick_writes {s : State} {b : Byte} (h : decIssues s = some (.outWrite b)) :
    decTick s = writeThen b s fun s' => .next (drained s') := by
  cases hd : s.dState <;> cases hp : s.dPhase <;> simp only [decIssues, hd, hp] at h <;> simp only [decTick, hd, hp]
  case emittingRun.drain =>
    cases h
    rfl
  case emittingLiteral.drain =>
    obtain ⟨b', hb, hbb⟩ := Option.map_eq_some_iff.mp h
    cases hbb
    simp only [litDrain, readLbuf, hb]
  all_goals cases h

theorem decTick_write_ok {s : State} {b : Byte} {d : DState} {q : List OutAnswer} (hd : s.dState = d)
    (h : decIssues s = some (.outWrite b)) (hq : s.outQueue = .ok :: q) :
    decTick s = .next { s.afterWrite b .ok q with
      k := s.k + 1, dState := if s.k + 1 = s.len then .readingHeader else d } := by
  rw [decTick_writes h, writeThen_ok _ _ hq, drained_eq, ← hd]
  rfl

theorem decTick_write_fail {s : State} {b : Byte} {k : IoErrorKind} {q : List OutAnswer}
    (h : decIssues s = some (.outWrite b)) (hq : s.outQueue = .fail k :: q) :
    decTick s = .next ((s.afterWrite b (.fail k) q).raise .wrFail (.io k)) :=
  (decTick_writes h).trans (writeThen_fail _ _ hq)

theorem fetchHeader_eos {s : State} {q : List InAnswer} (hq : s.inQueue = .eos :: q) :
    fetchHeader s = .next ((s.afterRead .eos q).raise .eofHdr .unexpectedEof) := by
  rw [fetchHeader, rxHdr, readThen_eos _ _ hq]

theorem runFill_eos {s : State} {q : List InAnswer} (hq : s.inQueue = .eos :: q) :
    runFill s = .next ((s.afterRead .eos q).raise .eofVal .unexpectedEof) := by
  rw [runFill, rxRunVal, readThen_eos _ _ hq]

theorem runFill_fail {s : State} {k : IoErrorKind} {q : List InAnswer} (hq : s.inQueue = .fail k :: q) :
    runFill s = .next ((s.afterRead (.fail k) q).raise .rdFail (.io k)) := by
  rw [runFill, rxRunVal, readThen_fail _ _ hq]

theorem decTick_runFill {s : State} (hd : s.dState = .emittingRun) (hp : s.dPhase = .fill) :
    decTick s = runFill s := by
  simp only [decTick, hd, hp]

/-- Settles O12: the value's read, and one copy's write. -/
theorem runPhases : Obligations.RunPhases := by
  refine ⟨fun s hd hp => ?_, fun s hd hp => ?_⟩
  · rw [decTick_runFill hd hp]
    exact ⟨fun b q hq => runFill_byte hq, fun q hq => runFill_eos hq, fun k q hq => runFill_fail hq⟩
  · have hissue : decIssues s = some (.outWrite s.val) := by simp only [decIssues, hd, hp]
    exact ⟨fun q hq => decTick_write_ok hd hissue hq, fun k q hq => decTick_write_fail hissue hq⟩

theorem decTick_litFill {s : State} (hd : s.dState = .emittingLiteral) (hp : s.dPhase = .fill) :
    decTick s = litFill s := by
  simp only [decTick, hd, hp]

/-- A body byte is stored at K, and the last one turns the decoder to draining. -/
theorem litFill_byte {s : State} {b : Byte} {q : List InAnswer} (hp : s.dPhase = .fill)
    (hq : s.inQueue = .byte b :: q) (hk : s.k.toNat < Config.lbufSize) :
    litFill s = .next { s.afterRead (.byte b) q with
      lbuf := writeCell s.lbuf s.k.toNat b
      k := if s.k + 1 = s.len then 0 else s.k + 1
      dPhase := if s.k + 1 = s.len then .drain else .fill } := by
  by_cases hl : s.k + 1 = s.len
  · rw [litFill_last hq hk hl, if_pos hl, if_pos hl]
  · rw [litFill_more hq hk hl, if_neg hl, if_neg hl, ← hp]
    rfl

theorem litFill_eos {s : State} {q : List InAnswer} (hq : s.inQueue = .eos :: q) :
    litFill s = .next ((s.afterRead .eos q).raise .eofLit .unexpectedEof) := by
  rw [litFill, rxLitBody, readThen_eos _ _ hq]

theorem litFill_fail {s : State} {k : IoErrorKind} {q : List InAnswer} (hq : s.inQueue = .fail k :: q) :
    litFill s = .next ((s.afterRead (.fail k) q).raise .rdFail (.io k)) := by
  rw [litFill, rxLitBody, readThen_fail _ _ hq]

/-- Settles O15: a body byte's read, and its write. -/
theorem litPhases : Obligations.LitPhases := by
  refine ⟨fun s hd hp => ?_, fun s b hd hp hb => ?_⟩
  · rw [decTick_litFill hd hp]
    exact ⟨fun b q hq hk => litFill_byte hp hq hk, fun q hq => litFill_eos hq, fun k q hq => litFill_fail hq⟩
  · have hissue : decIssues s = some (.outWrite b) := by simp only [decIssues, hd, hp, hb, Option.map_some]
    exact ⟨fun q hq => decTick_write_ok hd hissue hq, fun k q hq => decTick_write_fail hissue hq⟩

/-! ## The failures (R120) -/

/-- A step whose rest keeps STATUS fails only by the answer to its read. -/
theorem readThen_failed {s t : State} {c : ErrCause} {found : Byte → State → Res} (hs : s.status = .busy)
    (h : readThen c s found = .next t) (ht : t.status = .fail)
    (hf : ∀ b u, found b u = .next t → t.status = u.status) : t.errCause = c ∨ t.errCause = .rdFail := by
  rcases readThen_next h with ⟨-, rfl⟩ | ⟨b, q, -, h⟩ | ⟨q, -, rfl⟩ | ⟨k, q, -, rfl⟩
  · cases hs.symm.trans ht
  · cases (hs.symm.trans (hf b _ h).symm).trans ht
  · exact .inl rfl
  · exact .inr rfl

theorem decTick_write_failed {s t : State} {b : Byte} (hs : s.status = .busy)
    (hissue : decIssues s = some (.outWrite b)) (h : decTick s = .next t) (ht : t.status = .fail) :
    t.errCause = .wrFail := by
  rw [decTick_writes hissue] at h
  rcases writeThen_next h with ⟨-, rfl⟩ | ⟨q, -, h⟩ | ⟨k, q, -, rfl⟩
  · cases hs.symm.trans ht
  · cases h
    rw [drained_status] at ht
    cases hs.symm.trans ht
  · rfl

theorem fetchHeader_failed {s t : State} (hs : s.status = .busy) (h : fetchHeader s = .next t)
    (ht : t.status = .fail) : t.errCause = .eofHdr ∨ t.errCause = .rdFail := by
  unfold fetchHeader rxHdr at h
  refine readThen_failed hs h ht fun b u hu => ?_
  dsimp only at hu
  repeat' split at hu
  all_goals cases hu
  all_goals rfl

theorem litFill_failed {s t : State} (hs : s.status = .busy) (h : litFill s = .next t) (ht : t.status = .fail) :
    t.errCause = .eofLit ∨ t.errCause = .rdFail := by
  unfold litFill rxLitBody at h
  refine readThen_failed hs h ht fun b u hu => ?_
  obtain ⟨-, hu⟩ := writeLbuf_next hu
  dsimp only at hu
  split at hu
  all_goals cases hu
  all_goals rfl

theorem runFill_failed {s t : State} (hs : s.status = .busy) (h : runFill s = .next t) (ht : t.status = .fail) :
    t.errCause = .eofVal ∨ t.errCause = .rdFail :=
  readThen_failed hs (show rxRunVal s _ = _ from h) ht fun b u hu => by cases hu; rfl

theorem endFlush_failed {s t : State} (hs : s.status = .busy) (h : endFlush s = .next t) (ht : t.status = .fail) :
    t.errCause = .flFail := by
  rcases flushThen_next h with ⟨-, rfl⟩ | ⟨q, -, h⟩ | ⟨k, q, -, rfl⟩
  · cases hs.symm.trans ht
  · cases h
    cases ht
  · rfl

/-- Settles O30: each state has one primitive, and each primitive its own failures. -/
theorem decoderFailures : Obligations.DecoderFailures := by
  intro s t hdec h ht
  obtain ⟨hb, hm⟩ := (decoding_iff s).mp hdec
  simp only [unitTick, hm] at h
  cases hd : s.dState <;> cases hp : s.dPhase
  case readingHeader.fill | readingHeader.drain =>
    have hcause := fetchHeader_failed hb (by simpa only [decTick, hd] using h) ht
    simpa using hcause
  case emittingLiteral.fill =>
    have hcause := litFill_failed hb ((decTick_litFill hd hp).symm.trans h) ht
    simpa using hcause
  case emittingRun.fill =>
    have hcause := runFill_failed hb ((decTick_runFill hd hp).symm.trans h) ht
    simpa using hcause
  case emittingLiteral.drain =>
    obtain ⟨b, hcell, -⟩ := readLbuf_next (show litDrain s = _ by simpa only [decTick, hd, hp] using h)
    have hissue : decIssues s = some (.outWrite b) := by simp only [decIssues, hd, hp, hcell, Option.map_some]
    simpa using decTick_write_failed hb hissue h ht
  case emittingRun.drain =>
    have hissue : decIssues s = some (.outWrite s.val) := by simp only [decIssues, hd, hp]
    simpa using decTick_write_failed hb hissue h ht
  case done.fill | done.drain =>
    have hcause := endFlush_failed hb (by simpa only [decTick, hd] using h) ht
    simpa using hcause

/-! ## END, the commands, and the record a step runs -/

/-- Settles O18: the flush answered `Ok`, and the flush that fails. -/
theorem endCompletes : Obligations.EndCompletes := by
  intro s flag hb hm
  have hdec : s.decoding = true := (decoding_iff s).mpr ⟨hb, hm⟩
  refine ⟨fun q hq => exec_endRec_flushed flag hdec hq, fun k q hq => ?_⟩
  have hexec : exec (.endRec flag) s = endFlush (latchEnd s) := if_pos hdec
  have hq' : (latchEnd s).outQueue = .fail k :: q := hq
  rw [hexec]
  simp only [endFlush, flushThen, outFlush, hq']
  rfl

/-- Everything END can do: no effect, or its header latched and the flush waiting, answered `Ok` or failing. -/
theorem exec_endRec_next {s t : State} {flag : Bool} (h : exec (.endRec flag) s = .next t) :
    t = s ∨ t = latchEnd s ∨ (∃ q, t = { (latchEnd s).afterFlush .ok q with status := .ok }) ∨
    ∃ k q, t = ((latchEnd s).afterFlush (.fail k) q).raise .flFail (.io k) := by
  simp only [exec, execEnd] at h
  split at h
  · rcases flushThen_next h with ⟨-, ht⟩ | ⟨q, -, h⟩ | ⟨k, q, -, ht⟩
    · exact .inr (.inl ht)
    · cases h
      exact .inr (.inr (.inl ⟨q, rfl⟩))
    · exact .inr (.inr (.inr ⟨k, q, ht⟩))
  · cases h
    exact .inl rfl

/-- Everything a command can do: it is ignored while BUSY, and taken otherwise. -/
theorem exec_decodeCommand_next {s t : State} {d : Bool} (h : exec (decodeCommand d) s = .next t) :
    t = s ∨ t = if d then decStart (takeStart (modeOfPin d) s) else encStart (takeStart (modeOfPin d) s) := by
  by_cases hb : s.status = .busy
  · obtain ⟨-, -, hignored⟩ := startIsTaken
    obtain ⟨hencode, hdecode⟩ := hignored s hb
    cases d with
    | false => exact .inl (Host.Outcome.next.inj (hencode.symm.trans h)).symm
    | true => exact .inl (Host.Outcome.next.inj (hdecode.symm.trans h)).symm
  · exact .inr (Host.Outcome.next.inj ((exec_decodeCommand d hb).symm.trans h)).symm

/-- Settles O19: what END and the commands can do. -/
theorem endAndCommandFrame : Obligations.EndAndCommandFrame := by
  refine ⟨fun s t flag h => ?_, fun s t i hi h => ?_⟩
  · rcases exec_endRec_next h with rfl | rfl | ⟨q, rfl⟩ | ⟨k, q, rfl⟩ <;>
      simp [State.writeTrace, State.rpos, State.readTrace, Event.wroteByte?, Event.readByte?]
  · rcases hi with rfl | rfl
    · rcases exec_decodeCommand_next (d := false) h with rfl | rfl <;> simp
    · rcases exec_decodeCommand_next (d := true) h with rfl | rfl <;> simp

/-- Settles O20: the record that stands at a header, and the command of a `start` taken. -/
theorem stepRunsDecoded : Obligations.StepRunsDecoded := by
  refine ⟨fun s s1 i q hturn hm hd hi hw hq => step_record hturn hm hd hi hw hq, fun s s1 d hturn => ?_⟩
  simp only [step, nextAction, hturn, decodeCommand]

/-! ## Records that expand to some bytes (R67 to R69) -/

theorem isRecord_of_expands {i : Instr} (h : expansion i ≠ []) : i.isRecord = true := by
  cases i with
  | endRec | run | lit => rfl
  | encode | decode => exact absurd rfl h

theorem recordLength_pos {i : Instr} (h : expansion i ≠ []) : 1 ≤ recordLength i := by
  cases i with
  | run => exact Nat.le_succ 1
  | lit body => exact Nat.le_add_right 1 _
  | endRec | encode | decode => exact absurd rfl h

/-- A well-formed record is END or expands to some bytes. -/
theorem endRec_or_expands {i : Instr} (hi : i.isRecord = true) (hw : i.wellFormed = true) :
    (∃ flag, i = .endRec flag) ∨ expansion i ≠ [] := by
  cases i with
  | endRec flag => exact .inl ⟨flag, rfl⟩
  | run count value =>
    have hc : count ≠ 0 := by simpa [Instr.wellFormed] using hw
    refine .inr (List.ne_nil_of_length_pos ?_)
    rw [expansion, List.length_replicate]
    exact len_pos_of_ne_zero hc
  | lit body => exact .inr (List.ne_nil_of_length_pos (of_decide_eq_true hw).1)
  | encode | decode => cases hi

/-! ## A record drained to its end (R109, R110) -/

/-- A record's fields latched, with `bytes` of its expansion still to be written: those the decoder issues, one for each
value of K from here to LEN. -/
structure Draining (bytes : List Byte) (s : State) : Prop where
  running : s.decoding = true
  inside : s.dState ≠ .readingHeader
  phase : s.dPhase = .drain
  count : s.k.toNat + bytes.length = s.len.toNat
  issues : ∀ j c, bytes[j]? = some c → decIssues { s with k := BitVec.ofNat 7 (s.k.toNat + j) } = some (.outWrite c)

theorem Draining.midRecord {bytes : List Byte} {s : State} (h : Draining bytes s) : s.midRecord = true :=
  (midRecord_iff s).mpr ⟨h.running, h.inside⟩

theorem Draining.head {b : Byte} {bs : List Byte} {s : State} (h : Draining (b :: bs) s) :
    decIssues s = some (.outWrite b) := by
  simpa using h.issues 0 b rfl

theorem Draining.toNat_succ {b : Byte} {bs : List Byte} {s : State} (h : Draining (b :: bs) s) :
    (s.k + 1).toNat = s.k.toNat + 1 :=
  toNat_succ_of_lt (fill_index_lt h.count)

theorem Draining.more {b c : Byte} {cs : List Byte} {s : State} (h : Draining (b :: c :: cs) s) : s.k + 1 ≠ s.len := by
  intro e
  have hcount := h.count
  rw [← e, h.toNat_succ, List.length_cons, List.length_cons] at hcount
  omega

/-- The next byte written, the others are left. -/
theorem Draining.tail {b : Byte} {bs : List Byte} {s : State} (h : Draining (b :: bs) s) (q : List OutAnswer) :
    Draining bs { s.afterWrite b .ok q with k := s.k + 1 } := by
  have hcount := h.count
  have hsucc := h.toNat_succ
  rw [List.length_cons] at hcount
  refine ⟨h.running, h.inside, h.phase, (show (s.k + 1).toNat + _ = s.len.toNat by omega), fun j c hj => ?_⟩
  have hnext := h.issues (j + 1) c hj
  rwa [show s.k.toNat + (j + 1) = (s.k + 1).toNat + j by omega] at hnext

/-! ### The latch of a record -/

theorem latch_writeTrace (i : Instr) (s : State) : (latch i s).writeTrace = s.writeTrace := by cases i <;> rfl

theorem latch_readTrace (i : Instr) (s : State) : (latch i s).readTrace = s.readTrace := by cases i <;> rfl

theorem latch_inQueue (i : Instr) (s : State) : (latch i s).inQueue = s.inQueue := by cases i <;> rfl

theorem latch_outQueue (i : Instr) (s : State) : (latch i s).outQueue = s.outQueue := by cases i <;> rfl

theorem latch_k {i : Instr} (s : State) (h : expansion i ≠ []) : (latch i s).k = 0 := by
  cases i with
  | run | lit => rfl
  | endRec | encode | decode => exact absurd rfl h

theorem draining_latchRun {s : State} (count : Len) (value : Byte) (hdec : s.decoding = true) :
    Draining (List.replicate count.toNat value) (latchRun count value s) := by
  refine ⟨hdec, nofun, rfl, by simp, fun j c hj => ?_⟩
  obtain rfl := List.eq_of_mem_replicate (List.mem_of_getElem? hj)
  rfl

theorem draining_latchLit {s : State} {body : List Byte} (hdec : s.decoding = true) (hb : body.length < 128) :
    Draining body (latchLit body s) := by
  have hlen : (BitVec.ofNat 7 body.length).toNat = body.length := Nat.mod_eq_of_lt hb
  refine ⟨hdec, nofun, rfl, by simpa using hlen.symm, fun j c hj => ?_⟩
  obtain ⟨hj', -⟩ := List.getElem?_eq_some_iff.mp hj
  have hidx : (BitVec.ofNat 7 (0 + j)).toNat = 0 + j := Nat.mod_eq_of_lt (by omega)
  have hcell := (readCell_writeCells_inside s.lbuf 0 j body hj').trans hj
  exact congrArg (Option.map Primitive.outWrite) ((congrArg (readCell _) hidx).trans hcell)

/-- A well-formed record that expands to any bytes is ready to write them once latched. -/
theorem draining_latch {i : Instr} {s : State} (hdec : s.decoding = true) (hw : i.wellFormed = true)
    (hne : expansion i ≠ []) : Draining (expansion i) (latch i s) := by
  cases i with
  | run count value => exact draining_latchRun count value hdec
  | lit body => exact draining_latchLit hdec (Nat.lt_succ_of_le (of_decide_eq_true hw).2)
  | endRec | encode | decode => exact absurd rfl hne

/-- A well-formed record with an `Ok` for each byte of its expansion. -/
theorem exec_drained {s : State} {i : Instr} {q : List OutAnswer} (hdec : s.decoding = true)
    (hw : i.wellFormed = true) (hne : expansion i ≠ [])
    (hq : s.outQueue = List.replicate (expansion i).length .ok ++ q) :
    exec i s = .next (allDrained (expansion i) q (latch i s)) := by
  cases i with
  | run count value =>
    exact exec_run_drained hdec (by simpa [Instr.wellFormed] using hw) (by simpa [expansion] using hq)
  | lit body =>
    obtain ⟨h1, h127⟩ : 1 ≤ body.length ∧ body.length ≤ Config.lenMax := of_decide_eq_true hw
    exact exec_lit_drained hdec h1 h127 hq
  | endRec | encode | decode => exact absurd rfl hne

/-- Settles O13: as many writes as LEN says. -/
theorem runCompletes : Obligations.RunCompletes := by
  intro s count value q hb hm hc hq
  rw [exec_run_drained ((decoding_iff s).mpr ⟨hb, hm⟩) hc hq]
  simp [allDrained, latchRun, writeEvent]

/-- Settles O16: the body in LBUF is written from its first byte to its last. -/
theorem litCompletes : Obligations.LitCompletes := by
  intro s body q hb hm hw hq
  obtain ⟨h1, h127⟩ : 1 ≤ body.length ∧ body.length ≤ Config.lenMax := of_decide_eq_true hw
  exact exec_lit_drained ((decoding_iff s).mpr ⟨hb, hm⟩) h1 h127 hq

/-! ## A record cut off by a failing write (R134, R148) -/

/-- A record's steps end where one fails. -/
theorem runWhile_failed {s u : State} (fuel : Nat) (hs : s.midRecord = true) (h : decTick s = .next u)
    (hu : u.status = .fail) : runWhile State.midRecord decTick (fuel + 1) s = .next u :=
  (runWhile_succ fuel hs h).trans (runWhile_stopped decTick fuel (by simp [State.midRecord, State.decoding, hu]))

/-- After the bytes `sent` a write has failed with the kind `kind`, and `q` is left of the answers. -/
structure CutOff (sent : List Byte) (kind : IoErrorKind) (q : List OutAnswer) (s t : State) : Prop where
  failed : t.status = .fail ∧ t.errCause = .wrFail ∧ t.errKind = kind
  written : t.writeTrace = s.writeTrace ++ sent
  counted : t.k.toNat = s.k.toNat + sent.length
  answers : t.outQueue = q

theorem runWhile_cutOff {bytes : List Byte} {s : State} {j fuel : Nat} {kind : IoErrorKind} {q : List OutAnswer}
    (h : Draining bytes s) (hj : j < bytes.length) (hfuel : j < fuel)
    (hq : s.outQueue = List.replicate j .ok ++ .fail kind :: q) :
    ∃ t, runWhile State.midRecord decTick fuel s = .next t ∧ CutOff (bytes.take j) kind q s t := by
  induction j generalizing bytes s fuel with
  | zero =>
    obtain ⟨b, bs, rfl⟩ := List.exists_cons_of_length_pos hj
    obtain ⟨fuel, rfl⟩ := Nat.exists_eq_succ_of_ne_zero hfuel.ne'
    refine ⟨_, runWhile_failed fuel h.midRecord (decTick_write_fail h.head hq) rfl, ⟨rfl, rfl, rfl⟩, ?_, rfl, rfl⟩
    rw [writeTrace_raise, writeTrace_afterWrite_fail]
    exact (List.append_nil _).symm
  | succ j ih =>
    obtain ⟨b, c, cs, rfl⟩ : ∃ b c cs, bytes = b :: c :: cs := by
      match bytes, hj with
      | b :: c :: cs, _ => exact ⟨b, c, cs, rfl⟩
    obtain ⟨fuel, rfl⟩ := Nat.exists_eq_succ_of_ne_zero (Nat.ne_zero_of_lt hfuel)
    obtain ⟨t, ht, hcut⟩ := ih (h.tail _) (Nat.lt_of_succ_lt_succ hj) (Nat.lt_of_succ_lt_succ hfuel) rfl
    refine ⟨t, (runWhile_succ fuel h.midRecord (decTick_drain_more h.phase h.head hq h.more)).trans ht, hcut.failed, ?_,
      ?_, hcut.answers⟩
    · have hwritten := writeTrace_afterWrite_ok s b (List.replicate j .ok ++ .fail kind :: q)
      rw [hcut.written]
      exact (congrArg (· ++ _) hwritten).trans (List.append_assoc _ _ _)
    · rw [hcut.counted, h.toNat_succ, List.take_succ_cons, List.length_cons]
      omega

theorem length_expansion_le_stepsLatched (i : Instr) : (expansion i).length ≤ stepsLatched i := by
  cases i with
  | run count value => exact List.length_replicate.le
  | lit body => exact le_rfl
  | endRec | encode | decode => exact Nat.zero_le _

/-- Settles O28: the steps of a record that is cut off. -/
theorem drainFailureLeavesPart : Obligations.DrainFailureLeavesPart := by
  intro s i j k q hb hm hw hj hq
  have hdec : s.decoding = true := (decoding_iff s).mpr ⟨hb, hm⟩
  have hne : expansion i ≠ [] := List.ne_nil_of_length_pos (Nat.zero_lt_of_lt hj)
  obtain ⟨t, ht, hcut⟩ := runWhile_cutOff (draining_latch hdec hw hne) hj
    (hj.trans_le (length_expansion_le_stepsLatched i)) ((latch_outQueue i s).trans hq)
  obtain ⟨hst, hcause, hkind⟩ := hcut.failed
  refine ⟨t, (exec_record_eq (isRecord_of_expands hne) hdec).trans ht, hst, hcause, hkind,
    latch_writeTrace i s ▸ hcut.written, ?_, hcut.answers⟩
  rw [hcut.counted, latch_k s hne, List.length_take_of_le hj.le]
  exact Nat.zero_add j

/-! ## What draining leaves alone (R109, R110, R156) -/

/-- `s` with what draining a record can change blanked: K, DSTATE, the report of a failure and the output side. -/
def blankDrain (s : State) : State :=
  { s with
    status := .idle, errCause := .noCause, errKind := 0, dState := .readingHeader, k := 0, events := []
    outQueue := [], outBuffer := [], sinkLost := false }

/-- What draining has made of `s`, all bytes written being among `bytes`. -/
structure DrainedFrom (bytes : Byte → Prop) (s t : State) : Prop where
  rest : blankDrain t = blankDrain s
  record : t.dState = s.dState ∨ t.dState = .readingHeader
  events : ∃ w, t.events = s.events ++ w ∧ ∀ e ∈ w, ∃ b a, bytes b ∧ e = .wr b a
  report : t.status = .fail ∨
    (t.status = s.status ∧ t.errCause = s.errCause ∧ t.errKind = s.errKind ∧ t.sinkLost = s.sinkLost)

theorem drainedFrom_self (bytes : Byte → Prop) (s : State) : DrainedFrom bytes s s :=
  ⟨rfl, .inl rfl, ⟨[], by simp, by simp⟩, .inr ⟨rfl, rfl, rfl, rfl⟩⟩

theorem DrainedFrom.trans {bytes : Byte → Prop} {s u t : State} (hu : DrainedFrom bytes s u)
    (ht : DrainedFrom bytes u t) : DrainedFrom bytes s t := by
  obtain ⟨w, hw, hwr⟩ := hu.events
  obtain ⟨w', hw', hwr'⟩ := ht.events
  refine ⟨ht.rest.trans hu.rest, ?_, ⟨w ++ w', by rw [hw', hw, List.append_assoc], ?_⟩, ?_⟩
  · rcases ht.record with h | h
    · exact h ▸ hu.record
    · exact .inr h
  · exact fun e he => (List.mem_append.mp he).elim (hwr e) (hwr' e)
  · rcases ht.report with h | ⟨h1, h2, h3, h4⟩
    · exact .inl h
    · rw [h1, h2, h3, h4]
      exact hu.report

theorem blankDrain_drained (s : State) : blankDrain (drained s) = blankDrain s := by
  rw [drained_eq]
  rfl

/-- One write of a record's expansion: waited for, answered `Ok` and counted, or failing. -/
theorem drainedFrom_decTick {bytes : Byte → Prop} {s t : State} {b : Byte} (hb : bytes b)
    (hissue : decIssues s = some (.outWrite b)) (h : decTick s = .next t) : DrainedFrom bytes s t := by
  have hevent (a : OutAnswer) : ∀ e ∈ [Event.wr b a], ∃ b' a', bytes b' ∧ e = .wr b' a' :=
    fun e he => ⟨b, a, hb, List.mem_singleton.mp he⟩
  rw [decTick_writes hissue] at h
  rcases writeThen_next h with ⟨-, rfl⟩ | ⟨q, -, h⟩ | ⟨k, q, -, rfl⟩
  · exact drainedFrom_self bytes _
  · cases h
    refine ⟨blankDrain_drained _, ?_, ⟨_, drained_events _, hevent .ok⟩, .inr (by simp)⟩
    rw [drained_dState]
    split
    · exact .inr rfl
    · exact .inl rfl
  · exact ⟨rfl, .inl rfl, ⟨_, rfl, hevent (.fail k)⟩, .inl rfl⟩

/-- A decoder that drains a record, however many of its steps, provided that every byte it issues is among `bytes`. -/
theorem drainedFrom_runWhile {bytes : Byte → Prop} {s t : State} (fuel : Nat)
    (hissue : ∀ u v, u.dState = s.dState → blankDrain u = blankDrain s → decTick u = .next v →
      ∃ b, bytes b ∧ decIssues u = some (.outWrite b))
    (h : runWhile State.midRecord decTick fuel s = .next t) : DrainedFrom bytes s t := by
  refine runWhile_keeps (P := DrainedFrom bytes s) (fun u v hu hs hv => ?_) fuel s t (drainedFrom_self bytes s) h
  have hinside : u.dState = s.dState := hs.record.resolve_right ((midRecord_iff u).mp hu).2
  obtain ⟨b, hb, hi⟩ := hissue u v hinside hs.rest hv
  exact hs.trans (drainedFrom_decTick hb hi hv)

theorem drainedFrom_run {s t : State} {count : Len} {value : Byte} (hdec : s.decoding = true)
    (h : exec (.run count value) s = .next t) : DrainedFrom (· = value) (latchRun count value s) t := by
  refine drainedFrom_runWhile count.toNat (fun u v hd hu _ => ⟨value, rfl, ?_⟩) ((if_pos hdec).symm.trans h)
  have hp : u.dPhase = .drain := (congrArg State.dPhase hu :)
  have hval : u.val = value := (congrArg State.val hu :)
  rw [latchRun_dState] at hd
  simp only [decIssues, hd, hp, hval]

theorem drainedFrom_lit {s t : State} {body : List Byte} (hdec : s.decoding = true)
    (h : exec (.lit body) s = .next t) : DrainedFrom (fun _ => True) (latchLit body s) t := by
  refine drainedFrom_runWhile body.length (fun u v hd hu hv => ?_) ((if_pos hdec).symm.trans h)
  have hp : u.dPhase = .drain := (congrArg State.dPhase hu :)
  rw [latchLit_dState] at hd
  obtain ⟨b, hcell, -⟩ := readLbuf_next (show litDrain u = _ by simpa only [decTick, hd, hp] using hv)
  exact ⟨b, trivial, by simp only [decIssues, hd, hp, hcell, Option.map_some]⟩

/-- Settles O14: RUN latches its fields and drains. -/
theorem runFrame : Obligations.RunFrame := by
  intro s t count value h
  by_cases hdec : s.decoding = true
  · obtain ⟨hrest, -, ⟨w, hw, hwr⟩, hreport⟩ := drainedFrom_run hdec h
    simp only [blankDrain, latchRun, State.mk.injEq] at hrest
    have hvalue : ∀ e ∈ w, ∃ a, e = .wr value a := fun e he => by
      obtain ⟨b, a, rfl, rfl⟩ := hwr e he
      exact ⟨a, rfl⟩
    simp only [hrest, implies_true, true_and]
    exact ⟨⟨w, hw, hvalue⟩, hreport⟩
  · obtain rfl : s = t := Host.Outcome.next.inj ((if_neg hdec).symm.trans h)
    simp

/-- Settles O17: LIT latches its body and drains. -/
theorem litFrame : Obligations.LitFrame := by
  intro s t body h
  by_cases hdec : s.decoding = true
  · obtain ⟨hrest, -, ⟨w, hw, hwr⟩, hreport⟩ := drainedFrom_lit hdec h
    simp only [blankDrain, latchLit, State.mk.injEq] at hrest
    have hbody (a : Nat) (ha : a < body.length) : readCell (writeCells s.lbuf 0 body) a = body[a]? := by
      simpa using readCell_writeCells_inside s.lbuf 0 a body ha
    have hbeyond (a : Nat) (ha : body.length ≤ a) : readCell (writeCells s.lbuf 0 body) a = readCell s.lbuf a :=
      readCell_writeCells_outside _ _ _ _ (.inr (by rwa [Nat.zero_add]))
    have hwrite : ∀ e ∈ w, ∃ b a, e = .wr b a := fun e he => by
      obtain ⟨b, a, -, he⟩ := hwr e he
      exact ⟨b, a, he⟩
    simp only [hrest, implies_true, true_and]
    exact ⟨hbeyond, fun _ => hbody, ⟨w, hw, hwrite⟩, hreport⟩
  · obtain rfl : s = t := Host.Outcome.next.inj ((if_neg hdec).symm.trans h)
    simp [hdec]

/-! ## The reference decoder, record by record (R113) -/

/-- The cause an input that ends too soon is reported with (R150 to R152). -/
def causeOf : DecodeError → ErrCause
  | .noHeader => .eofHdr
  | .noValue => .eofVal
  | .shortBody => .eofLit

theorem causeOf_ne_noCause (x : DecodeError) : causeOf x ≠ .noCause := by cases x <;> nofun

theorem hdrFields_of_classify_run {h : Byte} (hc : classify h = .run) : hdrLen h ≠ 0 ∧ hdrFlag h = false := by
  unfold classify at hc
  split at hc
  · cases hc
  · split at hc
    · cases hc
    · exact ⟨‹_›, Bool.eq_false_iff.mpr ‹_›⟩

theorem hdrFields_of_classify_literal {h : Byte} (hc : classify h = .literal) : hdrLen h ≠ 0 ∧ hdrFlag h = true := by
  unfold classify at hc
  split at hc
  · cases hc
  · split at hc
    · exact ⟨‹_›, ‹_›⟩
    · cases hc

section
variable {e rest : List Byte} {i : Instr} (fuel : Nat) (out : List Byte) (p : Nat)

/-- A round that reads END ends the decoding. -/
theorem refDecodeFrom_ending {flag : Bool} (h : decodeRecord e = .ok (.endRec flag, rest)) :
    refDecodeFrom (fuel + 1) e out p = { out := out, consumed := p + 1, cause := .noCause } := by
  rcases decodeRecord_ok h with ⟨b, rfl, h0, -⟩ | ⟨b, v, -, -, -, hi⟩ | ⟨b, body, -, -, -, -, hi⟩
  · simp [refDecodeFrom, h0]
  · cases hi
  · cases hi

/-- A round that reads RUN or LIT adds its expansion to the output. -/
theorem refDecodeFrom_record (h : decodeRecord e = .ok (i, rest)) (hne : expansion i ≠ []) :
    refDecodeFrom (fuel + 1) e out p = refDecodeFrom fuel rest (out ++ expansion i) (p + recordLength i) := by
  rcases decodeRecord_ok h with ⟨b, -, -, rfl⟩ | ⟨b, v, rfl, h0, hf, rfl⟩ | ⟨b, body, rfl, h0, hf, hl, rfl⟩
  · exact absurd rfl hne
  · have hpos : (hdrLen b).toNat ≠ 0 := (len_pos_of_ne_zero h0).ne'
    simp [refDecodeFrom, hpos, hf, expansion, recordLength]
  · have hpos : body.length ≠ 0 := hl ▸ (len_pos_of_ne_zero h0).ne'
    simp [refDecodeFrom, ← hl, hpos, hf, expansion, recordLength, Nat.add_assoc]

/-- A round that finds no whole record fails, all bytes consumed. -/
theorem refDecodeFrom_error {x : DecodeError} (h : decodeRecord e = .error x) :
    refDecodeFrom (fuel + 1) e out p = { out := out, consumed := p + e.length, cause := causeOf x } := by
  rcases decodeRecord_error h with ⟨rfl, rfl⟩ | ⟨b, rfl, hc, rfl⟩ | ⟨b, rest, rfl, hc, hlt, rfl⟩
  · rfl
  · obtain ⟨h0, hf⟩ := hdrFields_of_classify_run hc
    have hpos : (hdrLen b).toNat ≠ 0 := (len_pos_of_ne_zero h0).ne'
    simp [refDecodeFrom, hpos, hf, causeOf]
  · obtain ⟨h0, hf⟩ := hdrFields_of_classify_literal hc
    have hpos : (hdrLen b).toNat ≠ 0 := (len_pos_of_ne_zero h0).ne'
    simp [refDecodeFrom, hpos, hf, hlt, causeOf, Nat.add_assoc, Nat.add_comm 1]

end

/-! ## The round trip (R116) -/

/-- The reference decoder gives back the expansions of records that END follows. -/
theorem refDecodeFrom_records {records : List Instr} {fuel : Nat} (out : List Byte) (p : Nat)
    (hrec : ∀ i ∈ records, i.wellFormed = true ∧ expansion i ≠ []) (hfuel : records.length < fuel) :
    refDecodeFrom fuel (records.flatMap recordBytes ++ [hdrEnd]) out p =
      { out := out ++ records.flatMap expansion
        consumed := p + (records.flatMap recordBytes ++ [hdrEnd]).length
        cause := .noCause } := by
  obtain ⟨fuel, rfl⟩ := Nat.exists_eq_succ_of_ne_zero (Nat.ne_zero_of_lt hfuel)
  induction records generalizing fuel out p with
  | nil =>
    rw [refDecodeFrom_ending (flag := false) (rest := []) fuel out p rfl]
    simp
  | cons i records ih =>
    obtain ⟨⟨hw, hne⟩, hrec⟩ := List.forall_mem_cons.mp hrec
    obtain ⟨fuel, rfl⟩ := Nat.exists_eq_succ_of_ne_zero (Nat.ne_zero_of_lt (Nat.lt_of_succ_lt_succ hfuel))
    rw [List.flatMap_cons, List.append_assoc, refDecodeFrom_record _ _ _
      (decodeRecord_recordBytes _ (isRecord_of_expands hne) hw) hne, ih _ _ hrec _ (Nat.lt_of_succ_lt_succ hfuel)]
    simp [recordBytes_length, Nat.add_assoc]

theorem length_le_flatMap_recordBytes {records : List Instr} (hrec : ∀ i ∈ records, expansion i ≠ []) :
    records.length ≤ (records.flatMap recordBytes).length := by
  induction records with
  | nil => exact le_rfl
  | cons i records ih =>
    obtain ⟨hne, hrec⟩ := List.forall_mem_cons.mp hrec
    rw [List.flatMap_cons, List.length_append, recordBytes_length, List.length_cons, Nat.add_comm]
    exact Nat.add_le_add (recordLength_pos hne) (ih hrec)

/-- A canonical record is well-formed and expands to some bytes, where no literal passes 127. -/
theorem wellFormed_of_canonical {i : Instr}
    (h : (∃ c v, i = .run c v ∧ 3 ≤ c.toNat) ∨ ∃ body, i = .lit body ∧ 1 ≤ body.length ∧ body.length ≤ 127) :
    i.wellFormed = true ∧ expansion i ≠ [] := by
  rcases h with ⟨c, v, rfl, h3⟩ | ⟨body, rfl, h1, h127⟩
  · have hw : (Instr.run c v).wellFormed = true := bne_iff_ne.mpr fun h0 => absurd (h0 ▸ h3) (by decide)
    exact ⟨hw, (endRec_or_expands rfl hw).resolve_left nofun⟩
  · have hw : (Instr.lit body).wellFormed = true := decide_eq_true ⟨h1, h127⟩
    exact ⟨hw, (endRec_or_expands rfl hw).resolve_left nofun⟩

/-- The header of a literal of 128 bytes is 0x80, which the decoder takes for END: the input is lost (R133). -/
theorem refDecode_of_literal_128 {fill : LitFill} {b : Byte} {l : List Byte}
    (hr : qualifies (refRun Config.lenMax (b :: l)) = false) (h128 : refLiteral fill 128 0 (b :: l) = 128) :
    (refDecode (refEncode fill (b :: l))).out = [] := by
  have henc : ∃ bytes, refEncode fill (b :: l) = hdrLit 128#8 :: bytes := by
    refine ⟨refBody fill b l ++ refEncodeFrom fill l.length (refRest fill b l), ?_⟩
    rw [refEncode, List.length_cons, refEncodeFrom_cons, refRecord_lit hr]
    simp only [recordBytes, encode, codeBytes, length_refBody, h128]
    rfl
  obtain ⟨bytes, henc⟩ := henc
  rw [henc, refDecode, refDecodeFrom_ending (flag := true) (rest := bytes) _ _ _ rfl]

/-- `n` times two pairs of bytes. -/
def pairs : Nat → List Byte
  | 0 => []
  | n + 1 => 1 :: 1 :: 2 :: 2 :: pairs n

/-- With CHUNK 63 pairs make a literal of 126 bytes, and the pair that follows makes it 128 (R133). -/
theorem refLiteral_chunk_pairs : refLiteral .chunk 128 0 (pairs 32) = 128 := by decide

/-- Settles O55: the encoder's output is read back record by record, except that a literal of 128 bytes is lost. -/
theorem roundTripLaw : Obligations.RoundTripLaw := by
  refine ⟨fun fill d hfill => ?_, fun h => ?_⟩
  · have hmax : literalMax fill = 127 := by
      cases fill with
      | split | defer => rfl
      | chunk => exact absurd rfl hfill
    obtain ⟨records, hbytes, hcanon, hexp⟩ := refEncodeFrom_canonical fill d.length d le_rfl
    have hrec : ∀ i ∈ records, i.wellFormed = true ∧ expansion i ≠ [] :=
      fun i hi => wellFormed_of_canonical (hmax ▸ hcanon i hi)
    have hfuel : records.length < (records.flatMap recordBytes ++ [hdrEnd]).length + 1 := by
      have := length_le_flatMap_recordBytes fun i hi => (hrec i hi).2
      rw [List.length_append]
      omega
    rw [refEncode, hbytes, refDecode, refDecodeFrom_records _ _ hrec hfuel, hexp, List.nil_append, Nat.zero_add]
  · have hlost := refDecode_of_literal_128 (b := 1) (l := 1 :: 2 :: 2 :: pairs 31) (by decide) refLiteral_chunk_pairs
    cases (h _).symm.trans hlost

/-! ## An input that ends too soon (R150 to R152) -/

/-- The bytes left of the input have been read and its end seen, which failed the invocation with the cause `c`. -/
structure InputEnded (bytes : List Byte) (c : ErrCause) (s t : State) : Prop where
  failed : t.status = .fail ∧ t.errCause = c ∧ t.errKind = 0
  events : t.events = s.events ++ bytes.map readEvent ++ [.rd .eos]

theorem InputEnded.writeTrace {bytes : List Byte} {c : ErrCause} {s t : State} (h : InputEnded bytes c s t) :
    t.writeTrace = s.writeTrace := by
  simp only [State.writeTrace, h.events, List.filterMap_append, filterMap_wroteByte_readEvent, List.append_nil]
  exact List.append_nil _

theorem InputEnded.rpos {bytes : List Byte} {c : ErrCause} {s t : State} (h : InputEnded bytes c s t) :
    t.rpos = s.rpos + bytes.length := by
  simp only [State.rpos, State.readTrace, h.events, List.filterMap_append, filterMap_readByte_readEvent,
    List.length_append]
  rfl

theorem inputEnded_raise (s : State) (q : List InAnswer) (c : ErrCause) :
    InputEnded [] c s ((s.afterRead .eos q).raise c .unexpectedEof) :=
  ⟨⟨rfl, rfl, errKindOf_unexpectedEof c⟩, by simp⟩

theorem InputEnded.cons {b : Byte} {bs : List Byte} {c : ErrCause} {s u t : State} (h : InputEnded bs c u t)
    (hu : u.events = s.events ++ [readEvent b]) : InputEnded (b :: bs) c s t :=
  ⟨h.failed, by rw [h.events, hu]; simp⟩

/-- A body that ends before LEN: its bytes are read, and none is written. -/
theorem runWhile_shortBody {s : State} {q : List InAnswer} {fuel : Nat} (bs : List Byte) (hdec : s.decoding = true)
    (hd : s.dState = .emittingLiteral) (hp : s.dPhase = .fill) (hq : s.inQueue = bs.map .byte ++ .eos :: q)
    (hk : s.k.toNat + bs.length < s.len.toNat) (hfuel : bs.length < fuel) :
    ∃ t, runWhile State.midRecord decTick fuel s = .next t ∧ InputEnded bs .eofLit s t := by
  have hmid : s.midRecord = true := (midRecord_iff s).mpr ⟨hdec, by rw [hd]; nofun⟩
  obtain ⟨fuel, rfl⟩ := Nat.exists_eq_succ_of_ne_zero (Nat.ne_zero_of_lt hfuel)
  induction bs generalizing s fuel with
  | nil =>
    exact ⟨_, runWhile_failed fuel hmid ((decTick_litFill hd hp).trans (litFill_eos hq)) rfl, inputEnded_raise s q _⟩
  | cons b bs ih =>
    rw [List.length_cons] at hk hfuel
    have hlt : s.k.toNat < Config.lbufSize := by have := s.len.isLt; simp only [Config.lbufSize]; omega
    have hsucc := toNat_succ_of_lt hlt
    have hmore : s.k + 1 ≠ s.len := fun e => by rw [e] at hsucc; omega
    have hstep := (decTick_litFill hd hp).trans (litFill_more hq hlt hmore)
    obtain ⟨fuel, rfl⟩ := Nat.exists_eq_succ_of_ne_zero (Nat.ne_zero_of_lt (Nat.lt_of_succ_lt_succ hfuel))
    obtain ⟨t, ht, hend⟩ := ih
      (s := { s.afterRead (.byte b) (bs.map .byte ++ .eos :: q) with
        lbuf := writeCell s.lbuf s.k.toNat b, k := s.k + 1 })
      hdec hd hp rfl (show (s.k + 1).toNat + _ < s.len.toNat by omega) hmid fuel (Nat.lt_of_succ_lt_succ hfuel)
    exact ⟨t, (runWhile_succ _ hmid hstep).trans ht, hend.cons rfl⟩

theorem partialRecord_of_fetchHeader {s u : State} (h : fetchHeader s = .next u) :
    partialRecord s = finishRecord u := by
  rw [partialRecord_eq, h]
  rfl

/-- Bytes that hold no whole record are read to their end, and the invocation fails with the cause they call for. -/
theorem partialRecord_error {s : State} {bytes : List Byte} {x : DecodeError} (hdec : s.decoding = true)
    (hq : s.inQueue = byteStream bytes) (h : decodeRecord bytes = .error x) :
    ∃ t, partialRecord s = .next t ∧ InputEnded bytes (causeOf x) s t := by
  rcases decodeRecord_error h with ⟨rfl, rfl⟩ | ⟨b, rfl, hc, rfl⟩ | ⟨b, body, rfl, hc, hlt, rfl⟩
  · refine ⟨_, (partialRecord_of_fetchHeader (fetchHeader_eos hq)).trans ?_, inputEnded_raise s [] _⟩
    exact runWhile_stopped decTick 256 rfl
  · obtain ⟨h0, hf⟩ := hdrFields_of_classify_run hc
    refine ⟨_, (partialRecord_of_fetchHeader (fetchHeader_run hq h0 hf)).trans
      (runWhile_failed 255 ((midRecord_iff _).mpr ⟨hdec, nofun⟩) (runFill_eos rfl) rfl), ?_⟩
    exact (inputEnded_raise _ [] _).cons rfl
  · obtain ⟨h0, hf⟩ := hdrFields_of_classify_literal hc
    obtain ⟨t, ht, hend⟩ := runWhile_shortBody (q := []) (fuel := 256) body
      (s := { s.afterRead (.byte b) (byteStream body) with
        len := hdrLen b, dState := .emittingLiteral, dPhase := .fill, k := 0 })
      hdec rfl rfl rfl ((Nat.zero_add _).trans_lt hlt) (by have := (hdrLen b).isLt; omega)
    exact ⟨t, (partialRecord_of_fetchHeader (fetchHeader_literal hq h0 hf)).trans ht, hend.cons rfl⟩

/-! ## The machine follows the reference decoder (R113)

Each round of the reference decoder is one machine step, from a header to a header. -/

/-- A running decode invocation at a header: the first `p` bytes of `e` read, `out` written, nothing failed. -/
structure AtHeader (e out : List Byte) (p : Nat) (s : State) : Prop where
  quiet : QuietDecode s
  header : s.dState = .readingHeader
  noFailure : s.errCause = .noCause ∧ s.errKind = 0
  input : s.inQueue = byteStream (e.drop p)
  written : s.writeTrace = out
  read : s.rpos = p

/-- The invocation has ended as `decode(e)` did, `r` (R113). -/
structure Decoded (e : List Byte) (r : RefDecoded) (t : State) : Prop where
  status : t.status = if r.cause = .noCause then .ok else .fail
  report : t.errCause = r.cause ∧ t.errKind = 0
  written : t.writeTrace = r.out
  read : t.rpos = r.consumed
  unread : r.cause = .noCause → t.inQueue = byteStream (e.drop r.consumed)

theorem leadingBytes_byteStream (bytes : List Byte) : leadingBytes (byteStream bytes) = bytes :=
  (leadingBytes_append bytes [.eos]).trans (List.append_nil bytes)

theorem byteStream_append (bs rest : List Byte) : byteStream (bs ++ rest) = bs.map .byte ++ byteStream rest := by
  simp [byteStream]

/-- What follows a record that stands `p` bytes into the input. -/
theorem rest_of_decodeRecord {e rest : List Byte} {p : Nat} {i : Instr}
    (h : decodeRecord (e.drop p) = .ok (i, rest)) : rest = e.drop (p + recordLength i) := by
  rw [← List.drop_drop, bytes_of_decodeRecord h, ← recordBytes_length, List.drop_left]

/-- `s` with a record's bytes read. -/
def recordRead (i : Instr) (q : List InAnswer) (s : State) : State :=
  { s with inQueue := q, events := s.events ++ (recordBytes i).map readEvent }

theorem recordRead_writeTrace (i : Instr) (q : List InAnswer) (s : State) :
    (recordRead i q s).writeTrace = s.writeTrace := by
  simp only [State.writeTrace, recordRead, List.filterMap_append, filterMap_wroteByte_readEvent, List.append_nil]

theorem recordRead_rpos (i : Instr) (q : List InAnswer) (s : State) :
    (recordRead i q s).rpos = s.rpos + recordLength i := by
  simp only [State.rpos, State.readTrace, recordRead, List.filterMap_append, filterMap_readByte_readEvent,
    List.length_append, recordBytes_length]

theorem writeTrace_afterFlush (s : State) (a : OutAnswer) (q : List OutAnswer) :
    (s.afterFlush a q).writeTrace = s.writeTrace := by
  simp [State.writeTrace, Event.wroteByte?]

theorem rpos_afterFlush (s : State) (a : OutAnswer) (q : List OutAnswer) : (s.afterFlush a q).rpos = s.rpos := by
  simp [State.rpos, State.readTrace, Event.readByte?]

/-- Latching and draining a record leave the samples, MODE, STATUS and the report of a failure. -/
theorem allDrained_latch_control (i : Instr) (bytes : List Byte) (q : List OutAnswer) (s : State) :
    (allDrained bytes q (latch i s)).host = s.host ∧ (allDrained bytes q (latch i s)).decoding = s.decoding ∧
    (allDrained bytes q (latch i s)).errCause = s.errCause ∧ (allDrained bytes q (latch i s)).errKind = s.errKind := by
  cases i <;> exact ⟨rfl, rfl, rfl, rfl⟩

section
variable {e out : List Byte} {p : Nat} {s : State} (h : AtHeader e out p s)
include h

theorem AtHeader.busy : s.status = .busy ∧ s.mode = .decode := (decoding_iff s).mp h.quiet.2

theorem AtHeader.recordRead_traces (i : Instr) (q : List InAnswer) :
    (recordRead i q s).writeTrace = out ∧ (recordRead i q s).rpos = p + recordLength i :=
  ⟨(recordRead_writeTrace i q s).trans h.written, (recordRead_rpos i q s).trans (congrArg (· + _) h.read)⟩

/-- The record that stands at the header is executed with its bytes read, and the input goes on behind it. -/
theorem AtHeader.step_eq {i : Instr} {rest : List Byte} (hrec : decodeRecord (e.drop p) = .ok (i, rest)) :
    step s = exec i (recordRead i (byteStream (e.drop (p + recordLength i))) s) := by
  obtain ⟨hb, hm⟩ := h.busy
  refine step_record (hostTurn_quiet_busy h.quiet.1 hb) hm h.header (isRecord_of_decodeRecord hrec)
    (wellFormed_of_decodeRecord hrec) ?_
  rw [h.input, bytes_of_decodeRecord hrec, byteStream_append, rest_of_decodeRecord hrec]

/-- A record with enough `Ok` answers leads to the next header. -/
theorem AtHeader.record {i : Instr} {rest : List Byte} {q : List OutAnswer}
    (hrec : decodeRecord (e.drop p) = .ok (i, rest)) (hne : expansion i ≠ [])
    (hq : s.outQueue = List.replicate (expansion i).length .ok ++ q) :
    ∃ u, step s = .next u ∧ AtHeader e (out ++ expansion i) (p + recordLength i) u ∧ u.outQueue = q := by
  have hexec := exec_drained (s := recordRead i (byteStream (e.drop (p + recordLength i))) s) h.quiet.2
    (wellFormed_of_decodeRecord hrec) hne hq
  obtain ⟨hhost, hdec, hcause, hkind⟩ := allDrained_latch_control i (expansion i) q
    (recordRead i (byteStream (e.drop (p + recordLength i))) s)
  obtain ⟨hwritten, hread⟩ := h.recordRead_traces i (byteStream (e.drop (p + recordLength i)))
  refine ⟨_, (h.step_eq hrec).trans hexec, ⟨⟨hhost.trans h.quiet.1, hdec.trans h.quiet.2⟩, rfl,
    ⟨hcause.trans h.noFailure.1, hkind.trans h.noFailure.2⟩, latch_inQueue i _, ?_, ?_⟩, rfl⟩
  · rw [allDrained_writeTrace, latch_writeTrace, hwritten]
  · rw [State.rpos, allDrained_readTrace, latch_readTrace]
    exact hread

/-- END with an `Ok` for its flush ends the invocation, the bytes behind it unread. -/
theorem AtHeader.ending {flag : Bool} {rest : List Byte} {q : List OutAnswer}
    (hrec : decodeRecord (e.drop p) = .ok (.endRec flag, rest)) (hq : s.outQueue = .ok :: q) :
    ∃ t, step s = .next t ∧ Decoded e { out := out, consumed := p + 1, cause := .noCause } t := by
  have hexec := exec_endRec_flushed (s := recordRead (.endRec flag) (byteStream (e.drop (p + 1))) s) (q := q) flag
    h.quiet.2 hq
  obtain ⟨hwritten, hread⟩ := h.recordRead_traces (.endRec flag) (byteStream (e.drop (p + 1)))
  refine ⟨_, (h.step_eq hrec).trans hexec, rfl, h.noFailure, ?_, ?_, fun _ => rfl⟩
  · exact (writeTrace_afterFlush _ .ok q).trans hwritten
  · exact (rpos_afterFlush _ .ok q).trans hread

/-- Bytes that hold no whole record end the invocation with a failure, all consumed. -/
theorem AtHeader.failing {x : DecodeError} (hrec : decodeRecord (e.drop p) = .error x) :
    ∃ t, step s = .next t ∧
      Decoded e { out := out, consumed := p + (e.drop p).length, cause := causeOf x } t := by
  obtain ⟨hb, hm⟩ := h.busy
  obtain ⟨t, ht, hend⟩ := partialRecord_error h.quiet.2 h.input hrec
  obtain ⟨hfail, hcause, hkind⟩ := hend.failed
  have hstep : step s = partialRecord s := by
    have herr : decodeRecord (leadingBytes s.inQueue) = .error x := by rw [h.input, leadingBytes_byteStream, hrec]
    simp only [step, nextAction, hostTurn_quiet_busy h.quiet.1 hb, hm, decodeAction, h.header, if_true, herr]
  exact ⟨t, hstep.trans ht, hfail.trans (if_neg (causeOf_ne_noCause x)).symm, ⟨hcause, hkind⟩,
    hend.writeTrace.trans h.written, hend.rpos.trans (congrArg (· + _) h.read),
    fun hc => absurd hc (causeOf_ne_noCause x)⟩

end

/-- The reference decoder never takes back output. -/
theorem length_le_refDecodeFrom (fuel : Nat) (e out : List Byte) (p : Nat) :
    out.length ≤ (refDecodeFrom fuel e out p).out.length := by
  induction fuel generalizing e out p with
  | zero => exact le_rfl
  | succ fuel ih =>
    cases hrec : decodeRecord e with
    | error x => rw [refDecodeFrom_error fuel out p hrec]
    | ok found =>
      obtain ⟨i, rest⟩ := found
      rcases endRec_or_expands (isRecord_of_decodeRecord hrec) (wellFormed_of_decodeRecord hrec) with ⟨flag, rfl⟩ | hne
      · rw [refDecodeFrom_ending fuel out p hrec]
      · rw [refDecodeFrom_record fuel out p hrec hne]
        exact (List.length_append ▸ Nat.le_add_right _ _).trans (ih rest (out ++ expansion i) _)

theorem core_run_one {s t : State} (h : step s = .next t) : Host.Core.run Sys2Proof.core 1 s = .next t := by
  rw [core_run_succ, h]
  rfl

/-- From a header on, with enough `Ok` answers, the machine ends as the reference decoder does. -/
theorem run_decoded {e out : List Byte} {p m : Nat} {s : State} (fuel : Nat) (h : AtHeader e out p s)
    (hfuel : (e.drop p).length < fuel) (hq : s.outQueue = List.replicate m .ok)
    (hm : (refDecodeFrom fuel (e.drop p) out p).out.length + 1 ≤ m + out.length) :
    ∃ k t, Host.Core.run Sys2Proof.core k s = .next t ∧ Decoded e (refDecodeFrom fuel (e.drop p) out p) t := by
  induction fuel generalizing out p m s with
  | zero => cases hfuel
  | succ fuel ih =>
    cases hrec : decodeRecord (e.drop p) with
    | error x =>
      obtain ⟨t, ht, hend⟩ := h.failing hrec
      exact ⟨1, t, core_run_one ht, refDecodeFrom_error fuel out p hrec ▸ hend⟩
    | ok found =>
      obtain ⟨i, rest⟩ := found
      rcases endRec_or_expands (isRecord_of_decodeRecord hrec) (wellFormed_of_decodeRecord hrec) with ⟨flag, rfl⟩ | hne
      · rw [refDecodeFrom_ending fuel out p hrec] at hm ⊢
        obtain ⟨m, rfl⟩ : ∃ k, m = k + 1 := ⟨m - 1, by dsimp only at hm; omega⟩
        obtain ⟨t, ht, hend⟩ := h.ending hrec hq
        exact ⟨1, t, core_run_one ht, hend⟩
      · have hshorter : rest.length < fuel := by
          rw [bytes_of_decodeRecord hrec, List.length_append, recordBytes_length] at hfuel
          have := recordLength_pos hne
          omega
        obtain rfl := rest_of_decodeRecord hrec
        rw [refDecodeFrom_record fuel out p hrec hne] at hm ⊢
        have hout := length_le_refDecodeFrom fuel (e.drop (p + recordLength i)) (out ++ expansion i)
          (p + recordLength i)
        rw [List.length_append] at hout
        obtain ⟨m, rfl⟩ : ∃ k, m = (expansion i).length + k := ⟨m - (expansion i).length, by omega⟩
        obtain ⟨u, hu, hnext, hqu⟩ := h.record hrec hne (hq.trans (List.replicate_add ..))
        obtain ⟨k, t, ht, hend⟩ := ih hnext hshorter hqu (by rw [List.length_append]; omega)
        exact ⟨k + 1, t, by rw [core_run_succ, hu]; exact ht, hend⟩

/-- Settles O58: `start` has left the decoder at the first header with nothing written. -/
theorem decodeInvocation : Obligations.DecodeInvocation := by
  intro s e m hl hm
  have hstart : AtHeader e [] 0 s :=
    { quiet := ⟨hl.quiet, (decoding_iff s).mpr hl.running⟩
      header := hl.decAtStart rfl
      noFailure := hl.noFailure
      input := hl.inputReady
      written := by simp [State.writeTrace, hl.noEvents]
      read := by simp [State.rpos, State.readTrace, hl.noEvents] }
  obtain ⟨k, t, ht, hend⟩ := run_decoded (e.length + 1) hstart (Nat.lt_succ_self _) hl.outputReady hm
  exact ⟨k, t, ht, hend.status, hend.report.1, hend.report.2, hend.written, hend.read, hend.unread⟩

end Sys2Proof.Machine

/-! PROOFS of the family 60_exceptions.md. What raising writes and what a step does outside an invocation (O25); the
primitive the core issues is what its step does (O26, O27); an input that ends at a header, inside a literal or before a
run's value (O22 to O24); and the sink after a failure (O60). -/

namespace Sys2Proof.Machine

/-! ## Raising, and the steps outside an invocation (R156) -/

/-- A failing answer's own kind is kept, and every other cause leaves 0 (R25). -/
theorem errKindOf_eq (cause : ErrCause) (kind : FailKind) : errKindOf cause kind =
    if cause = .rdFail ∨ cause = .wrFail ∨ cause = .flFail then
      (match kind with | .io k => k | .unexpectedEof => 0)
    else 0 := by
  cases kind with
  | io k => cases cause <;> rfl
  | unexpectedEof => cases cause <;> rfl

/-- Outside an invocation, with neither `rst` nor `start`, only what is presented is delivered (R168). -/
theorem hostTurn_unstarted {s : State} {p : HostInput} {ps : List HostInput} (hh : s.host = p :: ps)
    (hb : s.status ≠ .busy) (hr : p.rst = false) (hs : p.start = false) :
    hostTurn s = .settled (deliver p { s with host := ps }) := by
  have hbusy : State.busy { s with host := ps } = false := decide_eq_false hb
  rw [hostTurn_eq, hh]
  exact (if_neg (Bool.not_eq_true _ ▸ hbusy)).trans ((if_neg (by simp [hr])).trans (if_neg (by simp [hs])))

theorem step_of_settled {s t : State} (h : hostTurn s = .settled t) : step s = .next t := by
  simp only [step, nextAction, h]

/-- Settles O25: the fields of `raise`, and the control block's turn in FAIL. -/
theorem raiseWritesThree : Obligations.RaiseWritesThree := by
  refine ⟨fun s cause kind => ?_, fun s hfail => ?_⟩
  · exact congrArg (fun k => { s with errCause := cause, errKind := k, status := .fail, sinkLost := true })
      (errKindOf_eq cause kind)
  · have hidle : s.status ≠ .busy := by rw [hfail]; nofun
    refine ⟨fun hh => step_of_settled (hostTurn_quiet_rest hh hidle), fun p ps hh hr hs => ?_⟩
    exact ⟨_, step_of_settled (hostTurn_unstarted hh hidle hr hs), (deliver_status _ p).trans hfail, deliver_events _ p⟩

/-! ## The primitive issued is what the step does (R86, R106) -/

theorem unitTick_decoding {s : State} (h : s.decoding = true) : unitTick s = decTick s := by
  obtain ⟨-, hm⟩ := (decoding_iff s).mp h
  simp only [unitTick, hm]

/-- The core issues what its active unit does. -/
theorem unit_of_issues {s : State} {prim : Primitive} (h : s.issues = some prim) :
    (encIssues s = some prim ∧ unitTick s = encTick s) ∨ (decIssues s = some prim ∧ unitTick s = decTick s) := by
  unfold State.issues at h
  split at h
  · split at h <;> rename_i hm
    · exact .inl ⟨h, by simp only [unitTick, hm]⟩
    · exact .inr ⟨h, by simp only [unitTick, hm]⟩
  · cases h

/-- While a record is emitted, the write issued is its header's at TXK = 0 and a buffered byte's after that. -/
theorem header_or_body_write {k : BitVec 8} {h b : Byte} {cell : Option Byte}
    (hissue : (if k = 0 then some (.outWrite h) else cell.map .outWrite) = some (Primitive.outWrite b)) :
    (k = 0 ∧ h = b) ∨ (k ≠ 0 ∧ cell = some b) := by
  by_cases hk : k = 0
  · rw [if_pos hk] at hissue
    exact .inl ⟨hk, by simpa using hissue⟩
  · rw [if_neg hk] at hissue
    exact .inr ⟨hk, by simpa using hissue⟩

/-- Where the encoder issues a write, its step is that write. -/
theorem encTick_writes {s : State} {b : Byte} (h : encIssues s = some (.outWrite b)) :
    ∃ done, encTick s = writeThen b s done := by
  rcases encIssues_outWrite h with he | he | he <;> simp only [encIssues, he] at h
  · obtain ⟨hk, rfl⟩ | ⟨hk, hb⟩ := header_or_body_write h
    · exact ⟨_, encTick_runHeader he hk⟩
    · exact ⟨_, (encTick_txRun he).trans (encEmitRun_value hk hb)⟩
  · obtain ⟨hk, rfl⟩ | ⟨hk, hb⟩ := header_or_body_write h
    · exact ⟨_, (encTick_txLit he).trans (encEmitLit_header hk)⟩
    · exact ⟨_, (encTick_txLit he).trans (encEmitLit_body hk hb)⟩
  · cases h
    exact ⟨fun s' => .next { s' with eState := .flush }, encTick_txEnd he⟩

/-- Where the decoder issues a read, its step is a read that raises on a failing answer and at the end of the input. -/
theorem decTick_reads {s : State} (h : decIssues s = some .inRead) : ∃ c found, decTick s = readThen c s found := by
  cases hd : s.dState <;> cases hp : s.dPhase <;> simp only [decIssues, hd, hp] at h <;> simp only [decTick, hd, hp]
  case readingHeader.fill | readingHeader.drain =>
    simp only [fetchHeader, rxHdr]
    exact ⟨_, _, rfl⟩
  case emittingLiteral.fill =>
    simp only [litFill, rxLitBody]
    exact ⟨_, _, rfl⟩
  case emittingRun.fill =>
    simp only [runFill, rxRunVal]
    exact ⟨_, _, rfl⟩
  case emittingLiteral.drain => simp at h
  all_goals cases h

theorem decIssues_outFlush {s : State} (h : decIssues s = some .outFlush) : s.dState = .done := by
  cases hd : s.dState <;> cases hp : s.dPhase <;> simp only [decIssues, hd, hp] at h
  case done.fill | done.drain => rfl
  case emittingLiteral.drain => simp at h
  all_goals cases h

section
variable {s : State}

theorem unitTick_writes {b : Byte} (h : s.issues = some (.outWrite b)) :
    ∃ done, unitTick s = writeThen b s done := by
  rcases unit_of_issues h with ⟨hissue, hunit⟩ | ⟨hissue, hunit⟩
  · obtain ⟨done, htick⟩ := encTick_writes hissue
    exact ⟨done, hunit.trans htick⟩
  · exact ⟨_, hunit.trans (decTick_writes hissue)⟩

/-- Where the core issues a read, its step is that read, and a failing answer raises RD_FAIL (R147). -/
theorem unitTick_reads (h : s.issues = some .inRead) :
    ∃ rest, unitTick s = inRead s rest ∧ ∀ k u, rest (.fail k) u = .next (u.raise .rdFail (.io k)) := by
  rcases unit_of_issues h with ⟨hissue, hunit⟩ | ⟨hissue, hunit⟩
  · exact ⟨_, hunit.trans (encTick_load (encIssues_inRead hissue)), fun _ _ => rfl⟩
  · obtain ⟨c, found, htick⟩ := decTick_reads hissue
    exact ⟨_, hunit.trans htick, fun _ _ => rfl⟩

theorem unitTick_flushes (h : s.issues = some .outFlush) : ∃ done, unitTick s = flushThen s done := by
  rcases unit_of_issues h with ⟨hissue, hunit⟩ | ⟨hissue, hunit⟩
  · exact ⟨_, hunit.trans (encTick_flush (encIssues_outFlush hissue))⟩
  · refine ⟨_, hunit.trans (?_ : decTick s = endFlush s)⟩
    simp only [decTick, decIssues_outFlush hissue]

end

theorem flushThen_fail {s : State} {k : IoErrorKind} {q : List OutAnswer} (done : State → Res)
    (h : s.outQueue = .fail k :: q) :
    flushThen s done = .next ((s.afterFlush (.fail k) q).raise .flFail (.io k)) := by
  simp only [flushThen, outFlush, h]

/-- Settles O26: the step is the write issued, and that write raises. -/
theorem writeFailure : Obligations.WriteFailure := by
  intro s b k q hissue hq
  obtain ⟨done, hunit⟩ := unitTick_writes hissue
  exact ⟨_, hunit.trans (writeThen_fail b done hq), rfl, rfl, rfl, rfl, rfl, writeTrace_afterWrite_fail s b k q⟩

/-- Settles O27: the step is the read or the flush issued, and that primitive raises. -/
theorem readAndFlushFailure : Obligations.ReadAndFlushFailure := by
  refine ⟨fun s k q hissue hq => ?_, fun s k q hissue hq => ?_⟩
  · obtain ⟨rest, hunit, hraise⟩ := unitTick_reads hissue
    exact hunit.trans ((inRead_cons rest hq).trans (hraise k _))
  · obtain ⟨done, hunit⟩ := unitTick_flushes hissue
    exact hunit.trans (flushThen_fail done hq)

/-! ## The input ends too soon, step by step (R150 to R152) -/

/-- At a header with no whole record behind it, the machine goes as far as the answers do. -/
theorem step_partialRecord {s s' : State} {x : DecodeError} (hturn : hostTurn s = .running s')
    (hm : s'.mode = .decode) (hd : s'.dState = .readingHeader)
    (hrec : decodeRecord (leadingBytes s'.inQueue) = .error x) : step s = partialRecord s' := by
  simp only [step, nextAction, hturn, hm, decodeAction, hd, if_true, hrec]

/-- Settles O22: the header's read raises, and no step of a record follows. -/
theorem missingHeader : Obligations.MissingHeader := by
  intro s q hb hm hd hh hq
  have hrec : decodeRecord (leadingBytes s.inQueue) = .error .noHeader := by rw [hq]; rfl
  rw [step_partialRecord (hostTurn_quiet_busy hh hb) hm hd hrec, partialRecord_of_fetchHeader (fetchHeader_eos hq)]
  exact runWhile_stopped decTick 256 rfl

theorem microStep_header {s : State} (hs : QuietDecode s) (hd : s.dState = .readingHeader) :
    microStep s = fetchHeader s := by
  rw [microStep_quietDecode hs]
  simp only [decTick, hd]

theorem microStep_runFill {s : State} (hs : QuietDecode s) (hd : s.dState = .emittingRun) (hp : s.dPhase = .fill) :
    microStep s = runFill s :=
  (microStep_quietDecode hs).trans (decTick_runFill hd hp)

/-- The input has ended inside a literal, `body` of it read into LBUF. -/
structure BodyCutShort (body : List Byte) (s t : State) : Prop where
  ended : InputEnded body .eofLit s t
  filling : t.dState = .emittingLiteral ∧ t.dPhase = .fill
  counted : t.k.toNat = s.k.toNat + body.length
  announced : t.len = s.len

/-- A body byte is one step, and so is the end of the input. -/
theorem microRun_shortBody {s : State} {q : List InAnswer} (bs : List Byte) (hs : QuietDecode s)
    (hd : s.dState = .emittingLiteral) (hp : s.dPhase = .fill) (hq : s.inQueue = bs.map .byte ++ .eos :: q)
    (hk : s.k.toNat + bs.length < s.len.toNat) :
    ∃ t, microRun (bs.length + 1) s = .next t ∧ BodyCutShort bs s t := by
  induction bs generalizing s with
  | nil =>
    exact ⟨_, (microRun_one s).trans ((microStep_litFill hs hd hp).trans (litFill_eos hq)), inputEnded_raise s q _,
      ⟨hd, hp⟩, rfl, rfl⟩
  | cons b bs ih =>
    rw [List.length_cons] at hk ⊢
    have hlt : s.k.toNat < Config.lbufSize := by have := s.len.isLt; simp only [Config.lbufSize]; omega
    have hsucc := toNat_succ_of_lt hlt
    have hmore : s.k + 1 ≠ s.len := fun e => by rw [e] at hsucc; omega
    have hstep := (microStep_litFill hs hd hp).trans (litFill_more hq hlt hmore)
    obtain ⟨t, ht, hcut⟩ := ih
      (s := { s.afterRead (.byte b) (bs.map .byte ++ .eos :: q) with
        lbuf := writeCell s.lbuf s.k.toNat b, k := s.k + 1 })
      hs hd hp rfl (show (s.k + 1).toNat + _ < s.len.toNat by omega)
    have hcount : t.k.toNat = (s.k + 1).toNat + bs.length := hcut.counted
    exact ⟨t, (microRun_of_microStep _ hstep).trans ht, hcut.ended.cons rfl, hcut.filling,
      by rw [List.length_cons]; omega, hcut.announced⟩

/-- Settles O23: the end of the input raises wherever a body byte is due, whatever bytes came before it. -/
theorem truncatedLiteral : Obligations.TruncatedLiteral := by
  refine ⟨rfl, fun s q hdec hd hp hq => ?_, fun s h body q hb hm hd hh hc hlt hq => ?_⟩
  · exact ⟨_, (unitTick_decoding hdec).trans ((decTick_litFill hd hp).trans (litFill_eos hq)), rfl, rfl, rfl, rfl, rfl,
      rfl⟩
  · obtain ⟨h0, hf⟩ := hdrFields_of_classify_literal hc
    have hs : QuietDecode s := ⟨hh, (decoding_iff s).mpr ⟨hb, hm⟩⟩
    have hheader := (microStep_header hs hd).trans (fetchHeader_literal hq h0 hf)
    obtain ⟨t, ht, hcut⟩ := microRun_shortBody (q := q) body
      (s := { s.afterRead (.byte h) (body.map .byte ++ .eos :: q) with
        len := hdrLen h, dState := .emittingLiteral, dPhase := .fill, k := 0 })
      hs rfl rfl rfl ((Nat.zero_add _).trans_lt hlt)
    have hend : InputEnded (h :: body) .eofLit s t := hcut.ended.cons rfl
    obtain ⟨hfail, hcause, hkind⟩ := hend.failed
    obtain ⟨hstate, hphase⟩ := hcut.filling
    refine ⟨t, (microRun_of_microStep _ hheader).trans ht, hfail, hcause, hkind, hstate, hphase,
      hcut.counted.trans (Nat.zero_add _), hcut.announced, ?_, hend.writeTrace, hend.events⟩
    rw [hend.rpos, List.length_cons, Nat.add_assoc, Nat.add_comm 1]

/-- Settles O24: the end of the input raises where the value is due. -/
theorem missingRunValue : Obligations.MissingRunValue := by
  refine ⟨rfl, fun s q hdec hd hp hq => ?_, fun s h q hb hm hd hh hc hq => ?_⟩
  · exact ⟨_, (unitTick_decoding hdec).trans ((decTick_runFill hd hp).trans (runFill_eos hq)), rfl, rfl, rfl, rfl, rfl,
      rfl⟩
  · obtain ⟨h0, hf⟩ := hdrFields_of_classify_run hc
    have hs : QuietDecode s := ⟨hh, (decoding_iff s).mpr ⟨hb, hm⟩⟩
    have hheader := (microStep_header hs hd).trans (fetchHeader_run hq h0 hf)
    have hvalue := (microStep_runFill (s := { s.afterRead (.byte h) (.eos :: q) with
      len := hdrLen h, dState := .emittingRun, dPhase := .fill }) hs rfl rfl).trans (runFill_eos (q := q) rfl)
    refine ⟨_, (microRun_of_microStep 1 hheader).trans ((microRun_one _).trans hvalue), rfl, rfl, rfl, ?_, ?_, rfl⟩
    · exact ((inputEnded_raise _ q .eofVal).cons (b := h) rfl).rpos
    · exact ((inputEnded_raise _ q .eofVal).cons (b := h) rfl).writeTrace

/-! ## The sink after a failure (R157, R171) -/

theorem sinkContent_of_lost {s : State} (h : s.sinkLost = true) (m : Nat) : s.sinkContent m = Config.freeSink m :=
  if_pos (.inl h)

/-- A failed invocation has left its mark on the sink (R157). -/
def FailureMarked (s : State) : Prop := s.status = .fail → s.sinkLost = true

theorem FailureMarked.of_busy {s : State} (h : s.status = .busy) : FailureMarked s := fun hf => by
  cases h.symm.trans hf

theorem failureMarked_of_blank (t u : State) (hb : blankUnits t = blankUnits u) (hu : FailureMarked u) :
    FailureMarked t :=
  (congrArg FailureMarked hb).mpr hu

theorem failureMarked_of_effect (s u : State) (h : Effect s u) (hs : FailureMarked s) : FailureMarked u := by
  cases h with
  | silent | read | wrote => exact hs
  | flushed => exact nofun
  | eofRaised | readFailed | writeFailed | flushFailed => exact fun _ => rfl

/-- A machine step of a running invocation marks the sink if it fails. -/
theorem step_failureMarked {s t : State} (hb : s.status = .busy) (h : step s = .next t) : FailureMarked t := by
  refine step_keeps failureMarked_of_blank failureMarked_of_effect (fun s' hturn => ?_)
    (fun d s' _ => .of_busy rfl) (fun s' hturn => .of_busy (hostTurn_running hturn).1) h
  rw [hostTurn_eq] at hturn
  exact absurd hb (controlTurn_settled hturn).1

theorem sinkLost_of_blank (t u : State) (hb : blankUnits t = blankUnits u) (hu : u.sinkLost = true) :
    t.sinkLost = true :=
  (congrArg State.sinkLost hb :).trans hu

theorem sinkLost_of_effect (s u : State) (h : Effect s u) (hs : s.sinkLost = true) : u.sinkLost = true := by
  cases h with
  | silent | read | wrote | flushed => exact hs
  | eofRaised | readFailed | writeFailed | flushFailed => rfl

theorem sampled_sinkLost {s : State} (hs : s.sinkLost = true) (hold : ∀ p ps, s.host = p :: ps → p.fresh = false) :
    (sampled s).sinkLost = true := by
  have hfresh : (s.host.headD HostInput.low).fresh = false := by
    cases hh : s.host with
    | nil => rfl
    | cons p ps => exact hold p ps hh
  rw [sampled, deliver_sinkLost, hfresh]
  exact hs

/-- Every machine step keeps the mark while no fresh streams are opened. -/
theorem step_sinkLost {s t : State} (hs : s.sinkLost = true) (hold : ∀ p ps, s.host = p :: ps → p.fresh = false)
    (h : step s = .next t) : t.sinkLost = true := by
  have hsampled := sampled_sinkLost hs hold
  refine step_keeps sinkLost_of_blank sinkLost_of_effect (fun s' hturn => ?_) (fun d s' hturn => ?_)
    (fun s' hturn => ?_) h
  · obtain rfl | rfl := hostTurn_settled hturn <;> exact hsampled
  · obtain ⟨-, rfl⟩ := hostTurn_begin hturn
    exact hsampled
  · obtain ⟨-, rfl⟩ := hostTurn_running hturn
    exact hsampled

/-- Outside an invocation every machine step answers a next state: the sample delivered, and with `rst` or `start` the
core's elements written; the sink is not the core's. -/
theorem step_outside {s : State} (hb : s.status ≠ .busy) :
    ∃ t, step s = .next t ∧ ∀ m, t.sinkContent m = (sampled s).sinkContent m := by
  cases hturn : hostTurn s with
  | settled s' =>
    refine ⟨s', step_of_settled hturn, fun m => ?_⟩
    obtain rfl | rfl := hostTurn_settled hturn <;> rfl
  | begin d s' =>
    obtain ⟨hidle, rfl⟩ := hostTurn_begin hturn
    obtain ⟨-, hcommand⟩ := stepRunsDecoded
    refine ⟨_, (hcommand s _ d hturn).trans (exec_decodeCommand d hidle), fun m => ?_⟩
    cases d <;> rfl
  | running s' =>
    rw [hostTurn_eq] at hturn
    exact absurd (controlTurn_running hturn).1 hb
  | refuse r =>
    rw [hostTurn_eq] at hturn
    exact absurd (controlTurn_refuse_iff.mp hturn).1 hb

theorem sampled_fresh_sinkContent {s : State} {p : HostInput} {ps : List HostInput} (hh : s.host = p :: ps)
    (hf : p.fresh = true) (m : Nat) : (sampled s).sinkContent m = [] := by
  simp [State.sinkContent, sampled, hh, deliver_sinkLost, deliver_outBuffer, deliver_sink, hf]

/-- Settles O60: the mark is set by the failure, kept by every step, and cleared with the sink by fresh streams. -/
theorem sinkUnknownAfterFailure : Obligations.SinkUnknownAfterFailure := by
  refine ⟨fun s t hb h hf => ?_, fun s t hs h hold => ?_, fun s p ps hb hh hf => ?_⟩
  · exact sinkContent_of_lost (step_failureMarked hb h hf)
  · exact sinkContent_of_lost (step_sinkLost hs hold h)
  · obtain ⟨t, ht, hsink⟩ := step_outside hb
    exact ⟨t, ht, fun m => (hsink m).trans (sampled_fresh_sinkContent hh hf m)⟩

end Sys2Proof.Machine

/-! PROOFS of the family 70_reset_and_hazards.md. A primitive with no answer ready is a step that changes nothing (O46);
`rst` (O40) and a core at rest (O41) are the control block's turn alone. -/

namespace Sys2Proof.Machine

/-! ## Waiting (R53, R186) -/

theorem flushThen_waits {s : State} (done : State → Res) (h : s.outQueue = []) : flushThen s done = .next s := by
  simp only [flushThen, outFlush, h]

theorem busy_of_issues {s : State} {prim : Primitive} (h : s.issues = some prim) : s.status = .busy := by
  by_contra hb
  have hnone : s.issues = none := if_neg (by simpa [State.busy] using hb)
  exact absurd (hnone.symm.trans h) nofun

/-- A core that issues a primitive, with nothing presented, makes a step of its active unit. -/
theorem microStep_of_issues {s : State} {prim : Primitive} (hh : s.host = []) (h : s.issues = some prim) :
    microStep s = unitTick s := by
  simp only [microStep, hostTurn_quiet_busy hh (busy_of_issues h)]

/-- The machine step is a number of the spec's steps, so it waits where the spec's step does. -/
theorem step_waits_of_microStep {s : State} (hh : s.host = []) (h : microStep s = .next s) : step s = .next s := by
  obtain ⟨k, hk⟩ := stepIsMicroSteps s (by simp [hh])
  exact hk.symm.trans (runWhile_waits h k)

/-- Where the active unit waits at a primitive, so do the machine step and the spec's step. -/
theorem steps_wait_of_unitTick {s : State} {prim : Primitive} (hh : s.host = []) (hissue : s.issues = some prim)
    (h : unitTick s = .next s) : step s = .next s ∧ microStep s = .next s :=
  have hmicro := (microStep_of_issues hh hissue).trans h
  ⟨step_waits_of_microStep hh hmicro, hmicro⟩

/-- Settles O46: the unit's step is the primitive issued, and each of the three waits on an empty queue. -/
theorem waitingChangesNothing : Obligations.WaitingChangesNothing := by
  refine fun s hh => ⟨fun hissue hq => ?_, fun hissue hq => ?_⟩
  · obtain ⟨rest, hunit, -⟩ := unitTick_reads hissue
    exact steps_wait_of_unitTick hh hissue (hunit.trans (inRead_waits rest hq))
  · obtain hissue | ⟨b, hissue⟩ := hissue
    · obtain ⟨done, hunit⟩ := unitTick_flushes hissue
      exact steps_wait_of_unitTick hh hissue (hunit.trans (flushThen_waits done hq))
    · obtain ⟨done, hunit⟩ := unitTick_writes hissue
      exact steps_wait_of_unitTick hh hissue (hunit.trans (writeThen_waits b done hq))

/-! ## `rst` and a core at rest (R168 to R170) -/

/-- Outside an invocation `rst` is taken, whatever `start` says (R168). -/
theorem hostTurn_rst {s : State} {p : HostInput} {ps : List HostInput} (hh : s.host = p :: ps)
    (hb : s.status ≠ .busy) (hr : p.rst = true) :
    hostTurn s = .settled (resetCore (deliver p { s with host := ps })) := by
  have hbusy : State.busy { s with host := ps } = false := decide_eq_false hb
  rw [hostTurn_eq, hh]
  exact (if_neg (Bool.not_eq_true _ ▸ hbusy)).trans (if_pos hr)

/-- Settles O40: the control block takes `rst` outside an invocation and refuses it while BUSY. -/
theorem resetInput : Obligations.ResetInput := by
  refine fun s p ps hh hr => ⟨fun hb => ?_, fun hb => ?_⟩
  · exact ⟨_, step_of_settled (hostTurn_rst hh hb hr), rfl, rfl, rfl, rfl, rfl, rfl, rfl, rfl, deliver_events _ p⟩
  · exact (refusalsAreTheSpecs s .resetWhileBusy).mpr (.inl ⟨rfl, hb, p, ps, hh, hr⟩)

/-- Answers presented without fresh streams queue up behind the old ones (R173). -/
theorem deliver_of_not_fresh {p : HostInput} (s : State) (hf : p.fresh = false) :
    deliver p s = { s with inQueue := s.inQueue ++ p.inBeats, outQueue := s.outQueue ++ p.outBeats } :=
  if_neg (Bool.not_eq_true _ ▸ hf)

/-- Settles O41: the control block settles the step with what is delivered. -/
theorem idleUntilStart : Obligations.IdleUntilStart := by
  refine fun s hb => ⟨fun hh => step_of_settled (hostTurn_quiet_rest hh hb), fun p ps hh hr hs hf => ?_⟩
  exact (step_of_settled (hostTurn_unstarted hh hb hr hs)).trans (congrArg _ (deliver_of_not_fresh _ hf))

end Sys2Proof.Machine
